-- ==== Sys2Proof/Word.lean ====
section
/-! DEFINITION. The word types of the AB16: the fields that the manual treats as bits or as names on a wire, and the
numbers of ports, classes and source entries. -/

namespace Sys2Proof

/-- A byte of the switch link, or a character of the management line (R167). -/
abbrev Byte := BitVec 8

/-- A tag, the switch's 16-bit name for a bid (Table 3.2). -/
abbrev Tag := BitVec 16

/-- A locality key (Table 3.2). -/
abbrev LocalityKey := BitVec 16

/-- A 24-bit source address, match base or match mask (R39, R40). -/
abbrev Address := BitVec 24

/-- A count of the time base, which wraps from its greatest value to 0 (R26, R148). -/
abbrev Stamp := BitVec 32

/-- A set of ports, bit p for port p (R171). -/
abbrev PortSet := BitVec 16

/-- A set of the six notice kinds, bit n for the kind of notice code n (R171). -/
abbrev NoticeSet := BitVec 6

/-- A port number, 0..15. -/
abbrev PortNo := Fin 16

/-- A class number, 0..15. -/
abbrev ClassNo := Fin 16

/-- A source entry number, 0..63. -/
abbrev EntryNo := Fin 64

end Sys2Proof
end

