-- ==== Sys2Proof/Syntax.lean ====
section
/-! DEFINITION. The commands of the AB16: one constructor of `Instr` per row of spec/opcode_table.json, with the fields
that the row's frame, request or event carries. Numeric fields of requests have the widths of Table 11.3 and Table 11.6,
so every value the line can carry is a command; what is out of range is clamped or refused by the meaning, as the owning
rule says. -/

namespace Sys2Proof

/-- The link grade of a port (06 R100, codes of Table 11.4). -/
inductive Grade where
  | down | quarter | half | full
  deriving DecidableEq, Repr

/-- The body of a BID frame, and of a TEST-BID request (R169, R170). -/
structure BidBody where
  port : PortNo
  /-- the length less 1, so that the length is 1..1,048,576 (R169) -/
  codedLength : BitVec 20
  address : Address
  tag : Tag
  key : LocalityKey
  deriving DecidableEq, Repr

/-- The body of a FINISH frame, and of a TEST-FINISH request (R169, R170). -/
structure FinishBody where
  port : PortNo
  tag : Tag
  moved : BitVec 24
  deriving DecidableEq, Repr

/-- The port settings record of a PORT-SET request, as sent (Table 11.6). -/
structure SettingsBody where
  baseRate : BitVec 16
  interval : Byte
  prescale : Byte
  window : Byte
  finishDeadline : BitVec 16
  holdDown : BitVec 16
  deriving DecidableEq, Repr

/-- The source record of a SOURCE-SET request, as sent, without its outstanding count (Table 11.6). -/
structure SourceBody where
  valid : Byte
  matchBase : Address
  matchMask : Address
  cls : Byte
  limit : Byte
  admission : Byte
  deriving DecidableEq, Repr

/-- The contract record of a CONTRACT-STAGE request, as sent (Table 11.6). -/
structure ContractBody where
  valid : Byte
  lane : Byte
  floorShare : BitVec 16
  ceilingShare : BitVec 16
  floorBurst : BitVec 16
  ceilingBurst : BitVec 16
  isProtected : Byte
  queueLimit : BitVec 16
  runHold : BitVec 16
  deriving DecidableEq, Repr

/-- A management frame that the unit holds: the characters received after its start marker, and whether it was
abandoned at the end of its gap time (R135). -/
structure RequestFrame where
  chars : List Byte
  abandoned : Bool
  deriving DecidableEq, Repr

/-- The commands: one constructor per row of the table. -/
inductive Instr where
  -- the switch link unit (Chapter 7)
  | swByteReceived (b : Byte)
  | examinationResume
  | damagedFrame (bytes : List Byte)
  | lossOfFraming (bytes : List Byte)
  | syncResyncEnd
  | syncInSynced
  -- the frames of the switch (Chapters 3, 5, 6)
  | bid (body : BidBody)
  | withdraw (port : PortNo) (tag : Tag)
  | finish (body : FinishBody)
  | grade (port : PortNo) (g : Grade)
  | forget
  | checkPulseExpiry
  | swOutboundFrameSent
  -- the timers of a port (Chapters 2, 4, 5, 6)
  | accrualTimerExpiry (port : PortNo)
  | runTimerExpiry (port : PortNo)
  | deadlineExpiry (port : PortNo) (tag : Tag)
  | holdDownExpiry (port : PortNo)
  -- the management line (Chapter 8)
  | requestFrameComplete (chars : List Byte)
  | frameAbandoned
  | badFrameRequest (frame : RequestFrame)
  | unknownKindRequest (chars : List Byte)
  | mgFrameSent
  -- the requests (Table 11.3) and the resets
  | identify
  | lineRate (divider : BitVec 16)
  | status
  | noticeEnable (kinds : Byte)
  | noticeAck (kinds : Byte)
  | reset
  | warmReset
  | coldResetAssert
  | coldResetRelease
  | portSet (port : Byte) (body : SettingsBody)
  | portRead (port : Byte)
  | portMode (port : Byte) (mode : Byte)
  | portFlush (port : Byte)
  | sourceSet (entry : Byte) (body : SourceBody)
  | sourceRead (entry : Byte)
  | contractStage (port : Byte) (cls : Byte) (body : ContractBody)
  | contractRead (port : Byte) (cls : Byte) (set : Byte)
  | commit (ports : PortSet)
  | abortCommit (ports : PortSet)
  | lock (port : Byte) (cls : Byte)
  | queueRead (port : Byte) (cls : Byte)
  | poolSet (lowMark : BitVec 16) (highMark : BitVec 16)
  | poolRead
  | faultRead
  | faultClear
  | faultMode (value : Byte)
  | counterSelect (port : Byte) (event : Byte) (cls : Byte)
  | counterRead (port : Byte) (clear : Byte)
  | testBid (body : BidBody)
  | testFinish (body : FinishBody)
  | rehearsalRead
  | mgCharacterReceived (c : Byte)
  deriving DecidableEq, Repr

end Sys2Proof
end

