-- ==== Sys2Proof/Decode.lean ====
section
/-! DEFINITION. The words of the opcode table. The AB16 is a block: no row of its table gives bits, so no word spells a
command. The frames of the two links, which do have bits, are read in Machine/Wire.lean. -/

namespace Sys2Proof

/-- The command that a word spells by the table's bits: none, for every word. -/
def decodeTableWord (_nbits _w : Nat) : Option Instr := none

end Sys2Proof
end

