-- ==== Sys2Proof/Config.lean ====
section
/-! DEFINITION. What is fixed in one part and not given by the manual: a constant with no value, so that every claim
about the model holds for every value of it. -/

namespace Sys2Proof

/-- One less than the revision number of the part, so that the revision number is 1..255 (R140). The manual does not
give the number: entry 15 of the assumption log. -/
opaque Config.revisionLessOne : Fin 255

end Sys2Proof
end

