-- ==== Sys2Proof/Machine/State.lean ====
section
/-! DEFINITION. The state of the AB16 as plain data: every item that a chapter of the manual gives to a block, the pins,
the queue of waiting commands, and the state right after a cold reset. -/

namespace Sys2Proof.Machine

/-! ## Names of the manual (codes in Machine/Layout.lean) -/

/-- The priority lane of a row (Table 1.1). -/
inductive Lane where
  | prime | main | backfill
  deriving DecidableEq, Repr

/-- The kind of a charge (R34, R35). -/
inductive Charge where
  | floor | ceiling
  deriving DecidableEq, Repr

/-- The administrative mode of a port (R100). -/
inductive Mode where
  | off | live | frozen | rehearsal
  deriving DecidableEq, Repr

/-- The commit status of a port; the commit-pending flag is set exactly while it is `pending` (R1). -/
inductive CommitStatus where
  | none | pending | applied | aborted
  deriving DecidableEq, Repr

/-- The admission of a source entry (R39). -/
inductive Admission where
  | admitted | muted
  deriving DecidableEq, Repr

/-- The prescale of the accrual interval (R24). -/
inductive Prescale where
  | us1 | us16
  deriving DecidableEq, Repr

/-- The link state of the switch link unit (R118). -/
inductive LinkState where
  | synced | resync
  deriving DecidableEq, Repr

/-- The cause of a DECLINE (Table 11.5). -/
inductive Cause where
  | portOff | portRehearsal | portDown | unknownSource | sourceMuted | noAllotment
  | duplicateTag | sourceLimit | queueFull | poolFull | flushed | allotmentWithdrawn
  deriving DecidableEq, Repr

/-- The outcome of a WITHDRAW (R58). -/
inductive WithdrawOutcome where
  | removed | late | unknown
  deriving DecidableEq, Repr

/-- The nine fault kinds (Table 9.1). -/
inductive FaultKind where
  | unknownSource | duplicateTag | strayFinish | overlengthFinish | linkCheck
  | linkResync | finishLapse | poolExhausted | portStranded
  deriving DecidableEq, Repr

/-- The two severities of fault (R149). -/
inductive Severity where
  | minor | major
  deriving DecidableEq, Repr

/-- The six notice kinds (R133). -/
inductive NoticeKind where
  | fault | commit | grade | pool | strand | rehearsal
  deriving DecidableEq, Repr

/-- The eight counter events (R156). -/
inductive CounterEvent where
  | arrivals | declines | awards | awardBytes | floorAwards | ceilingAwards | runAwards | lapses
  deriving DecidableEq, Repr

/-- The result of a reply (Table 8.3). -/
inductive ReplyResult where
  | ok | clamped | busy | locked | inconsistent | overcommit | notAllowed | unknownKind | badFrame
  deriving DecidableEq, Repr

/-- The kind of a rehearsal log entry (Table 10.1). -/
inductive LogKind where
  | award | lapse
  deriving DecidableEq, Repr

/-! ## Ports -/

/-- The contract fields of an allotment row (Table 1.1). -/
structure Contract where
  valid : Bool
  lane : Lane
  floorShare : Nat
  ceilingShare : Nat
  floorBurst : Nat
  ceilingBurst : Nat
  isProtected : Bool
  queueLimit : Nat
  runHold : Nat
  deriving DecidableEq, Repr

/-- A held bid record (Table 3.2). -/
structure BidRecord where
  tag : Tag
  source : EntryNo
  cls : ClassNo
  length : Nat
  key : LocalityKey
  acceptTime : Stamp
  deriving DecidableEq, Repr

/-- An active row: its contract and its run-time state (Table 1.2). -/
structure Row where
  contract : Contract
  /-- the floor account FB -/
  fb : Int
  /-- the ceiling account CB -/
  cb : Int
  /-- the remainder of the floor account, in 1/4096 byte -/
  rf : Nat
  /-- the remainder of the ceiling account, in 1/4096 byte -/
  rc : Nat
  /-- the effective floor share -/
  e : Nat
  /-- the effective ceiling share -/
  ce : Nat
  /-- the row queue, head first (R49) -/
  queue : List BidRecord
  deriving DecidableEq, Repr

/-- A record on an award list: the bid record and its award fields (R72, R83, R84). -/
structure AwardRecord where
  bid : BidRecord
  charge : Charge
  awardTime : Stamp
  deadline : Stamp
  /-- the µs left to the deadline -/
  timer : Nat
  refundable : Bool
  deriving DecidableEq, Repr

/-- A lock cell (R20). -/
structure LockCell where
  locked : Bool
  floor : Nat
  deriving DecidableEq, Repr

/-- The six port settings (Tables 2.1 and 6.5). -/
structure PortSettings where
  baseRate : Nat
  interval : Nat
  prescale : Prescale
  window : Nat
  finishDeadline : Nat
  holdDown : Nat
  deriving DecidableEq, Repr

/-- The fields of an OPEN run record (R61). -/
structure Run where
  cls : ClassNo
  source : EntryNo
  key : LocalityKey
  /-- the µs left before the run closes by expiry -/
  timer : Nat
  deriving DecidableEq, Repr

/-- The six round-robin pointers (R61). -/
structure Pointers where
  primeFloor : ClassNo
  primeCeiling : ClassNo
  mainFloor : ClassNo
  mainCeiling : ClassNo
  backfillFloor : ClassNo
  backfillCeiling : ClassNo
  deriving DecidableEq, Repr

/-- The counter pair of a port (R156). -/
structure CounterPair where
  event : CounterEvent
  cls : ClassNo
  a : Nat
  b : Nat
  deriving DecidableEq, Repr

/-- One port: its allotment tables, accrual unit, award scheduler and counter pair. -/
structure Port where
  active : Vector Row 16
  staged : Vector Contract 16
  locks : Vector LockCell 16
  commitStatus : CommitStatus
  referenceGrade : Grade
  settings : PortSettings
  loadedPeriod : Nat
  /-- the µs left of the running accrual period (R26) -/
  accrualTimer : Nat
  awards : List AwardRecord
  pointers : Pointers
  /-- none while the run record is CLOSED -/
  run : Option Run
  mode : Mode
  grade : Grade
  stranded : Bool
  /-- none while STOPPED, else the µs left (R111) -/
  holdDownTimer : Option Nat
  counters : CounterPair
  deriving DecidableEq, Repr

/-! ## Shared units -/

/-- A source entry (Table 3.1). -/
structure SourceEntry where
  valid : Bool
  matchBase : Address
  matchMask : Address
  cls : ClassNo
  limit : Nat
  admission : Admission
  outstanding : Nat
  deriving DecidableEq, Repr

/-- The counts and marks of the bid pool (R45, R54). The held records stand in the row queues and award lists. -/
structure Pool where
  free : Nat
  lowMark : Nat
  highMark : Nat
  pause : Bool
  deriving DecidableEq, Repr

/-- A frame to the switch (Table 7.3). -/
inductive SwOut where
  | award (port : PortNo) (tag : Tag)
  | decline (port : PortNo) (tag : Tag) (cause : Cause)
  | withdrawAnswer (port : PortNo) (tag : Tag) (outcome : WithdrawOutcome)
  | lapse (port : PortNo) (tag : Tag)
  | forgotten
  | sync
  deriving DecidableEq, Repr

/-- The switch link unit (Table 7.1). -/
structure SwitchUnit where
  link : LinkState
  /-- the receive buffer, oldest byte first -/
  rx : List Byte
  /-- none, or RUNNING with the µs left -/
  checkPulse : Option Nat
  /-- the outbound queue, oldest frame first -/
  outq : List SwOut
  /-- the head of the outbound queue is the frame in transmission -/
  sending : Bool
  deriving DecidableEq, Repr

/-- A frame in assembly: the characters taken after its start marker, and the µs left of its gap time (R135). -/
structure Assembly where
  chars : List Byte
  gap : Nat
  deriving DecidableEq, Repr

/-- What the end of a reply's last stop bit brings about (R134, R147). -/
inductive OnSent where
  | nothing
  | takeDivider (d : BitVec 16)
  | warmReset
  deriving DecidableEq, Repr

/-- A reply in the outbound queue (R137). -/
structure Reply where
  kind : Byte
  result : ReplyResult
  dropped : Bool
  /-- the body after the reply header (Table 11.3) -/
  body : List Byte
  onSent : OnSent
  deriving DecidableEq, Repr

/-- The pending set and the two port sets (Table 8.1, Table 11.6). -/
structure NoticeRecord where
  pending : NoticeSet
  gradePorts : PortSet
  strandPorts : PortSet
  deriving DecidableEq, Repr

/-- A frame to the host. A NOTICE has no content until its transmission begins (R143). -/
inductive MgOut where
  | reply (r : Reply)
  | notice (content : Option NoticeRecord)
  deriving DecidableEq, Repr

/-- Where a served RESET stands (R147): none is awaiting its warm reset; its reply is queued; its reply has been sent. -/
inductive ResetStage where
  | idle | awaiting | replySent
  deriving DecidableEq, Repr

/-- The management link unit (Table 8.1). -/
structure MgUnit where
  /-- the stored line divider -/
  divider : BitVec 16
  /-- the divider in force on the line (R134) -/
  lineDivider : BitVec 16
  assembly : Option Assembly
  /-- the inbound buffer, oldest frame first -/
  inbound : List RequestFrame
  /-- the outbound queue, oldest frame first -/
  outq : List MgOut
  /-- the head of the outbound queue is the frame in transmission -/
  sending : Bool
  dropped : Bool
  notices : NoticeRecord
  enables : NoticeSet
  resetStage : ResetStage
  deriving DecidableEq, Repr

/-- A fault as reported: its kind, time and the fields present (R149). -/
structure FaultReport where
  kind : FaultKind
  time : Stamp
  port : Option PortNo
  cls : Option ClassNo
  source : Option EntryNo
  tag : Option Tag
  address : Option Address
  deriving DecidableEq, Repr

/-- The fault record unit (Table 9.2): the record is EMPTY while `held` is none. -/
structure FaultUnit where
  held : Option FaultReport
  moreMinor : Bool
  moreMajor : Bool
  /-- bit n − 1 for the fault kind of code n (R171) -/
  kindsSeen : BitVec 9
  ignoreMinor : Bool
  deriving DecidableEq, Repr

/-- An entry of the rehearsal log (Table 10.1). -/
structure LogEntry where
  kind : LogKind
  port : PortNo
  tag : Tag
  cls : ClassNo
  charge : Charge
  length : Nat
  time : Stamp
  deriving DecidableEq, Repr

/-- The rehearsal log: its entries, oldest first, and its reserved places (R160). -/
structure RehearsalLog where
  entries : List LogEntry
  reserved : Nat
  deriving DecidableEq, Repr

/-- The discrete pins (Table 0.4). `rstN` is true while RST_N is high; `alertLow` is true while ALERT is driven low. -/
structure Pins where
  rstN : Bool
  attn : Bool
  alertLow : Bool
  pause : Bool
  deriving DecidableEq, Repr

end Sys2Proof.Machine

namespace Sys2Proof.Machine

/-- The whole part, and the queue of commands that wait. -/
structure State where
  /-- the commands waiting, first in first out; the model's own, no state of the part (entry 18) -/
  pending : List Instr
  pins : Pins
  /-- the free-running microsecond count (R148) -/
  timeBase : Stamp
  ports : Vector Port 16
  /-- the commit groups, each the set of ports that have not yet applied (R12) -/
  groups : List PortSet
  sources : Vector SourceEntry 64
  pool : Pool
  sw : SwitchUnit
  mg : MgUnit
  faults : FaultUnit
  log : RehearsalLog
  deriving DecidableEq, Repr

/-- Why a step stops with a fault. The AB16 never stops: what its manual calls a fault is a report to the fault record
unit, an effect on State. So there is no reason, and no command ends in a fault (safe). -/
inductive Fault where
  deriving DecidableEq, Repr

/-- Why a command is refused. -/
inductive Refusal where
  /-- Raised by `exec` for a command that has no meaning in the model; no arm raises it, since every command has its
  meaning (safe: a refused command proves nothing about the part). -/
  | notModelled (mnemonic : String)
  deriving DecidableEq, Repr

/-! ## Cold values -/

/-- The cold contract of every row (R2). -/
def Contract.cold : Contract :=
  { valid := false, lane := .backfill, floorShare := 0, ceilingShare := 1, floorBurst := 0, ceilingBurst := 1,
    isProtected := false, queueLimit := 1, runHold := 0 }

def Row.cold : Row :=
  { contract := .cold, fb := 0, cb := 0, rf := 0, rc := 0, e := 0, ce := 0, queue := [] }

/-- The pointers after either reset (R61). -/
def Pointers.allLast : Pointers := ⟨15, 15, 15, 15, 15, 15⟩

def PortSettings.cold : PortSettings :=
  { baseRate := 1250, interval := 10, prescale := .us1, window := 4, finishDeadline := 5000, holdDown := 200 }

def Port.cold : Port :=
  { active := Vector.replicate 16 .cold, staged := Vector.replicate 16 .cold,
    locks := Vector.replicate 16 { locked := false, floor := 0 }, commitStatus := .none, referenceGrade := .full,
    settings := .cold, loadedPeriod := 10, accrualTimer := 10, awards := [], pointers := .allLast, run := none,
    mode := .off, grade := .down, stranded := true, holdDownTimer := none,
    counters := { event := .arrivals, cls := 0, a := 0, b := 0 } }

def SourceEntry.cold : SourceEntry :=
  { valid := false, matchBase := 0, matchMask := 0, cls := 0, limit := 1, admission := .admitted, outstanding := 0 }

def Pool.cold : Pool := { free := 2048, lowMark := 64, highMark := 256, pause := false }

def SwitchUnit.cold : SwitchUnit := { link := .resync, rx := [], checkPulse := none, outq := [], sending := false }

def NoticeRecord.empty : NoticeRecord := { pending := 0, gradePorts := 0, strandPorts := 0 }

def MgUnit.cold : MgUnit :=
  { divider := 54, lineDivider := 54, assembly := none, inbound := [], outq := [], sending := false, dropped := false,
    notices := .empty, enables := 0, resetStage := .idle }

def FaultUnit.cold : FaultUnit :=
  { held := none, moreMinor := false, moreMajor := false, kindsSeen := 0, ignoreMinor := false }

def RehearsalLog.empty : RehearsalLog := { entries := [], reserved := 0 }

/-- The machine right after a cold reset: RST_N has been released and every block holds its cold values (R148). -/
def State.reset : State :=
  { pending := [], pins := { rstN := true, attn := false, alertLow := true, pause := false }, timeBase := 0,
    ports := Vector.replicate 16 .cold, groups := [], sources := Vector.replicate 64 .cold, pool := .cold,
    sw := .cold, mg := .cold, faults := .cold, log := .empty }

end Sys2Proof.Machine
end

