-- ==== Sys2Proof/Machine/Wire.lean ====
section
/-! DEFINITION. What arrives on the two links: the order of bytes in a field, the two cyclic redundancy checks, the
frames of the switch and their examination in SYNCED (R120, R168, R169), the hunt for SYNC in RESYNC (R124), and the
request frames of the host and their examination (R138, R170, R171). -/

namespace Sys2Proof.Wire

/-! ## Fields of more than one byte, most significant byte first (R167) -/

def bytes2 (v : BitVec 16) : List Byte := [v.extractLsb' 8 8, v.extractLsb' 0 8]

def bytes3 (v : BitVec 24) : List Byte := [v.extractLsb' 16 8, v.extractLsb' 8 8, v.extractLsb' 0 8]

def bytes4 (v : BitVec 32) : List Byte :=
  [v.extractLsb' 24 8, v.extractLsb' 16 8, v.extractLsb' 8 8, v.extractLsb' 0 8]

def word2 (b1 b0 : Byte) : BitVec 16 := b1 ++ b0

def word3 (b2 b1 b0 : Byte) : BitVec 24 := b2 ++ b1 ++ b0

/-- The byte with the port in its high nibble and `low` in its low nibble (R169). -/
def portNibble (port : PortNo) (low : BitVec 4) : Byte := BitVec.ofNat 4 port.val ++ low

/-- The port in the high nibble of a byte (R169). -/
def portOf (b : Byte) : PortNo := Fin.ofNat 16 (b.extractLsb' 4 4).toNat

def lowNibble (b : Byte) : BitVec 4 := b.extractLsb' 0 4

/-! ## The cyclic redundancy checks -/

/-- One bit of the CRC-8 with generator x^8 + x^5 + x^4 + 1 (R168). -/
def crc8Bit (r : Byte) : Byte := if r.msb then (r <<< 1) ^^^ 0x31#8 else r <<< 1

def crc8Byte (r b : Byte) : Byte := Nat.iterate crc8Bit 8 (r ^^^ b)

/-- The CRC-8 register after the bytes, from FFh, most significant bit first, with no final inversion (R168). -/
def crc8 (bytes : List Byte) : Byte := bytes.foldl crc8Byte 0xFF#8

/-- One bit of the CRC-16 with generator x^16 + x^12 + x^5 + 1 (R170). -/
def crc16Bit (r : BitVec 16) : BitVec 16 := if r.msb then (r <<< 1) ^^^ 0x1021#16 else r <<< 1

def crc16Byte (r : BitVec 16) (b : Byte) : BitVec 16 := Nat.iterate crc16Bit 8 (r ^^^ (b ++ 0#8))

/-- The CRC-16 register after the bytes, from FFFFh, most significant bit first, with no final inversion (R170). -/
def crc16 (bytes : List Byte) : BitVec 16 := bytes.foldl crc16Byte 0xFFFF#16

/-! ## Codes of a link grade (Table 11.4) -/

def gradeCode : Grade → BitVec 4
  | .down => 0
  | .quarter => 1
  | .half => 2
  | .full => 4

/-- The values 3 and 5 to 15 are undefined (R169). -/
def gradeOfCode (c : BitVec 4) : Option Grade :=
  if c = 0 then some .down else if c = 1 then some .quarter else if c = 2 then some .half
  else if c = 4 then some .full else none

/-! ## Frames of the switch (R168, R169) -/

/-- A frame from the switch, by its fields (Table 7.2). -/
inductive SwIn where
  | bid (body : BidBody)
  | withdraw (port : PortNo) (tag : Tag)
  | finish (body : FinishBody)
  | grade (port : PortNo) (g : Grade)
  | forget
  | sync
  deriving DecidableEq, Repr

/-- The six switch-to-AB16 kinds (Table 11.1). -/
inductive SwKind where
  | bid | withdraw | finish | grade | forget | sync
  deriving DecidableEq, Repr

def SwKind.code : SwKind → Byte
  | .bid => 0x21 | .withdraw => 0x22 | .finish => 0x23 | .grade => 0x24 | .forget => 0x2E | .sync => 0x5A

def SwKind.bodyLength : SwKind → Nat
  | .bid => 10 | .withdraw => 3 | .finish => 6 | .grade => 1 | .forget => 0 | .sync => 0

def swKindOf (b : Byte) : Option SwKind :=
  [SwKind.bid, .withdraw, .finish, .grade, .forget, .sync].find? (fun k => k.code == b)

def bidBytes (b : BidBody) : List Byte :=
  [portNibble b.port (b.codedLength.extractLsb' 16 4), b.codedLength.extractLsb' 8 8, b.codedLength.extractLsb' 0 8]
    ++ bytes3 b.address ++ bytes2 b.tag ++ bytes2 b.key

def finishBytes (f : FinishBody) : List Byte := [portNibble f.port 0] ++ bytes2 f.tag ++ bytes3 f.moved

def SwIn.kind : SwIn → SwKind
  | .bid _ => .bid | .withdraw _ _ => .withdraw | .finish _ => .finish | .grade _ _ => .grade
  | .forget => .forget | .sync => .sync

/-- The body of a frame (Table 11.2); unassigned bits are sent as 0 (R167). -/
def SwIn.body : SwIn → List Byte
  | .bid b => bidBytes b
  | .withdraw p t => portNibble p 0 :: bytes2 t
  | .finish f => finishBytes f
  | .grade p g => [portNibble p (gradeCode g)]
  | .forget => []
  | .sync => []

/-- The whole frame: kind code, body length, body, CRC-8 (R168). -/
def SwIn.bytes (f : SwIn) : List Byte :=
  let covered := f.kind.code :: BitVec.ofNat 8 f.kind.bodyLength :: f.body
  covered ++ [crc8 covered]

def bidOfBytes : List Byte → Option BidBody
  | [h, l1, l0, a2, a1, a0, t1, t0, k1, k0] =>
    some { port := portOf h, codedLength := lowNibble h ++ l1 ++ l0, address := word3 a2 a1 a0,
           tag := word2 t1 t0, key := word2 k1 k0 }
  | _ => none

def finishOfBytes : List Byte → Option FinishBody
  | [h, t1, t0, m2, m1, m0] => some { port := portOf h, tag := word2 t1 t0, moved := word3 m2 m1 m0 }
  | _ => none

/-- The frame a body of a kind stands for; none where a coded field holds an undefined code (test 4 of R120). Bits
that no table assigns are ignored (R167). -/
def decodeSwBody (k : SwKind) (body : List Byte) : Option SwIn :=
  match k, body with
  | .bid, body => (bidOfBytes body).map .bid
  | .withdraw, [h, t1, t0] => some (.withdraw (portOf h) (word2 t1 t0))
  | .finish, body => (finishOfBytes body).map .finish
  | .grade, [h] => (gradeOfCode (lowNibble h)).map (.grade (portOf h))
  | .forget, [] => some .forget
  | .sync, [] => some .sync
  | _, _ => none

/-- What the examination of the head of the receive buffer finds in SYNCED (R120): bytes are still missing; the frame
of `n` bytes fails its CRC-8; framing is lost; or a good frame of `n` bytes. -/
inductive Examined where
  | incomplete
  | damaged (n : Nat)
  | lost
  | good (f : SwIn) (n : Nat)
  deriving DecidableEq, Repr

/-- Tests 3 to 5 of R120, once the whole frame of kind `k` is in the buffer. -/
def examineWhole (k : SwKind) (kb lb : Byte) (rest : List Byte) : Examined :=
  let n := k.bodyLength
  if rest.length < n + 1 then .incomplete
  else if crc8 (kb :: lb :: rest.take (n + 1)) ≠ 0 then .damaged (n + 3)
  else match decodeSwBody k (rest.take n) with
    | some f => .good f (n + 3)
    | none => .lost

/-- R120: the five tests in their order, on the frame that begins at the head of the buffer. -/
def examine : List Byte → Examined
  | [] => .incomplete
  | kb :: rest =>
    match swKindOf kb with
    | none => .lost
    | some k =>
      match rest with
      | [] => .incomplete
      | lb :: rest => if lb ≠ BitVec.ofNat 8 k.bodyLength then .lost else examineWhole k kb lb rest

/-- The three bytes of a good SYNC frame (R124). -/
def syncBytes : List Byte := SwIn.sync.bytes

/-- R124: in RESYNC, each byte position that does not begin a good SYNC is discarded; the hunt stops at a good SYNC, or
where not enough bytes have arrived to decide. -/
def hunt : List Byte → List Byte
  | [] => []
  | b :: rest =>
    if syncBytes.isPrefixOf (b :: rest) || (b :: rest).isPrefixOf syncBytes then b :: rest else hunt rest

/-! ## Request frames of the host (R170, R171, Table 11.3) -/

/-- The start marker of a frame sent by the host or of a reply (R170). -/
def startMarker : Byte := 0x7E

def settingsBytes (b : SettingsBody) : List Byte :=
  bytes2 b.baseRate ++ [b.interval, b.prescale, b.window] ++ bytes2 b.finishDeadline ++ bytes2 b.holdDown

def sourceBytes (b : SourceBody) : List Byte :=
  [b.valid] ++ bytes3 b.matchBase ++ bytes3 b.matchMask ++ [b.cls, b.limit, b.admission]

def contractBytes (b : ContractBody) : List Byte :=
  [b.valid, b.lane] ++ bytes2 b.floorShare ++ bytes2 b.ceilingShare ++ bytes2 b.floorBurst ++ bytes2 b.ceilingBurst
    ++ [b.isProtected] ++ bytes2 b.queueLimit ++ bytes2 b.runHold

/-- The kind code and the body of a request (Table 11.3); none for a command that is no request. -/
def requestParts : Instr → Option (Byte × List Byte)
  | .identify => some (0x01, [])
  | .lineRate d => some (0x02, bytes2 d)
  | .status => some (0x03, [])
  | .noticeEnable k => some (0x04, [k])
  | .noticeAck k => some (0x05, [k])
  | .reset => some (0x06, [])
  | .portSet p b => some (0x10, p :: settingsBytes b)
  | .portRead p => some (0x11, [p])
  | .portMode p m => some (0x12, [p, m])
  | .portFlush p => some (0x13, [p])
  | .sourceSet e b => some (0x20, e :: sourceBytes b)
  | .sourceRead e => some (0x21, [e])
  | .contractStage p c b => some (0x30, p :: c :: contractBytes b)
  | .contractRead p c t => some (0x31, [p, c, t])
  | .commit m => some (0x32, bytes2 m)
  | .abortCommit m => some (0x33, bytes2 m)
  | .lock p c => some (0x34, [p, c])
  | .queueRead p c => some (0x35, [p, c])
  | .poolSet l h => some (0x40, bytes2 l ++ bytes2 h)
  | .poolRead => some (0x41, [])
  | .faultRead => some (0x50, [])
  | .faultClear => some (0x51, [])
  | .faultMode v => some (0x52, [v])
  | .counterSelect p e c => some (0x53, [p, e, c])
  | .counterRead p r => some (0x54, [p, r])
  | .testBid b => some (0x60, bidBytes b)
  | .testFinish f => some (0x61, finishBytes f)
  | .rehearsalRead => some (0x62, [])
  | .swByteReceived _ | .examinationResume | .damagedFrame _ | .lossOfFraming _ | .syncResyncEnd | .syncInSynced
  | .bid _ | .withdraw _ _ | .finish _ | .grade _ _ | .forget | .checkPulseExpiry | .swOutboundFrameSent
  | .accrualTimerExpiry _ | .runTimerExpiry _ | .deadlineExpiry _ _ | .holdDownExpiry _ | .requestFrameComplete _
  | .frameAbandoned | .badFrameRequest _ | .unknownKindRequest _ | .mgFrameSent | .warmReset | .coldResetAssert
  | .coldResetRelease | .mgCharacterReceived _ => none

/-- The body length fixed for each request kind (Table 11.3); none for a kind that is no request kind. -/
def requestLength (kind : Byte) : Option Nat :=
  match kind.toNat with
  | 0x01 => some 0 | 0x02 => some 2 | 0x03 => some 0 | 0x04 => some 1 | 0x05 => some 1 | 0x06 => some 0
  | 0x10 => some 10 | 0x11 => some 1 | 0x12 => some 2 | 0x13 => some 1
  | 0x20 => some 11 | 0x21 => some 1
  | 0x30 => some 17 | 0x31 => some 3 | 0x32 => some 2 | 0x33 => some 2 | 0x34 => some 2 | 0x35 => some 2
  | 0x40 => some 4 | 0x41 => some 0
  | 0x50 => some 0 | 0x51 => some 0 | 0x52 => some 1 | 0x53 => some 3 | 0x54 => some 2
  | 0x60 => some 10 | 0x61 => some 6 | 0x62 => some 0
  | _ => none

def settingsOfBytes : List Byte → Option SettingsBody
  | [r1, r0, i, p, w, d1, d0, h1, h0] => some ⟨word2 r1 r0, i, p, w, word2 d1 d0, word2 h1 h0⟩
  | _ => none

def sourceOfBytes : List Byte → Option SourceBody
  | [v, b2, b1, b0, m2, m1, m0, c, l, a] => some ⟨v, word3 b2 b1 b0, word3 m2 m1 m0, c, l, a⟩
  | _ => none

def contractOfBytes : List Byte → Option ContractBody
  | [v, l, f1, f0, c1, c0, fb1, fb0, cb1, cb0, pr, q1, q0, h1, h0] =>
    some ⟨v, l, word2 f1 f0, word2 c1 c0, word2 fb1 fb0, word2 cb1 cb0, pr, word2 q1 q0, word2 h1 h0⟩
  | _ => none

/-! A body of 0 to 3 bytes, or of one or two words. -/

def body0 (i : Instr) : List Byte → Option Instr
  | [] => some i
  | _ => none

def body1 (f : Byte → Instr) : List Byte → Option Instr
  | [a] => some (f a)
  | _ => none

def body2 (f : Byte → Byte → Instr) : List Byte → Option Instr
  | [a, b] => some (f a b)
  | _ => none

def body3 (f : Byte → Byte → Byte → Instr) : List Byte → Option Instr
  | [a, b, c] => some (f a b c)
  | _ => none

def bodyWord (f : BitVec 16 → Instr) : List Byte → Option Instr
  | [a, b] => some (f (word2 a b))
  | _ => none

def bodyWords (f : BitVec 16 → BitVec 16 → Instr) : List Byte → Option Instr
  | [a, b, c, d] => some (f (word2 a b) (word2 c d))
  | _ => none

/-- The request that a body of a kind stands for (Table 11.3). -/
def decodeRequest (kind : Byte) (body : List Byte) : Option Instr :=
  match kind.toNat with
  | 0x01 => body0 .identify body
  | 0x02 => bodyWord .lineRate body
  | 0x03 => body0 .status body
  | 0x04 => body1 .noticeEnable body
  | 0x05 => body1 .noticeAck body
  | 0x06 => body0 .reset body
  | 0x10 => body.head?.bind (fun p => (settingsOfBytes body.tail).map (.portSet p))
  | 0x11 => body1 .portRead body
  | 0x12 => body2 .portMode body
  | 0x13 => body1 .portFlush body
  | 0x20 => body.head?.bind (fun e => (sourceOfBytes body.tail).map (.sourceSet e))
  | 0x21 => body1 .sourceRead body
  | 0x30 => body.head?.bind (fun p => body.tail.head?.bind (fun c =>
      (contractOfBytes body.tail.tail).map (.contractStage p c)))
  | 0x31 => body3 .contractRead body
  | 0x32 => bodyWord .commit body
  | 0x33 => bodyWord .abortCommit body
  | 0x34 => body2 .lock body
  | 0x35 => body2 .queueRead body
  | 0x40 => bodyWords .poolSet body
  | 0x41 => body0 .poolRead body
  | 0x50 => body0 .faultRead body
  | 0x51 => body0 .faultClear body
  | 0x52 => body1 .faultMode body
  | 0x53 => body3 .counterSelect body
  | 0x54 => body2 .counterRead body
  | 0x60 => (bidOfBytes body).map .testBid
  | 0x61 => (finishOfBytes body).map .testFinish
  | 0x62 => body0 .rehearsalRead body
  | _ => none

/-- A whole request frame less its start marker: body length, kind, body, CRC-16 (R170). -/
def frameOf (kind : Byte) (body : List Byte) : RequestFrame :=
  let covered := bytes2 (BitVec.ofNat 16 body.length) ++ kind :: body
  { chars := covered ++ bytes2 (crc16 covered), abandoned := false }

/-- The frame of a request; the empty frame for a command that is no request. -/
def requestFrame (i : Instr) : RequestFrame :=
  match requestParts i with
  | some (kind, body) => frameOf kind body
  | none => { chars := [], abandoned := false }

/-- A frame is complete when its second CRC-16 character has arrived: body length, kind, body and CRC-16 are five
characters more than the body (R135). -/
def isComplete (chars : List Byte) : Bool :=
  match chars with
  | h :: l :: _ => decide ((word2 h l).toNat + 5 ≤ chars.length)
  | _ => false

/-- The kind of a received frame, 0 where it was abandoned before its kind arrived (R137, R170). -/
def kindOf (f : RequestFrame) : Byte := f.chars[2]?.getD 0

/-- What the examination of a request frame gives (R138). -/
inductive Verdict where
  | badFrame
  | unknownKind
  | request (i : Instr)
  deriving DecidableEq, Repr

/-- R138: the tests on a served frame in their order. -/
def verdict (f : RequestFrame) : Verdict :=
  if f.abandoned || crc16 f.chars != 0 then .badFrame
  else match f.chars with
    | h :: l :: kind :: rest =>
      match requestLength kind with
      | none => .unknownKind
      | some n =>
        if (word2 h l).toNat ≠ n then .badFrame
        else match decodeRequest kind (rest.take n) with
          | some i => .request i
          | none => .badFrame
    | _ => .badFrame

end Sys2Proof.Wire
end

