-- ==== Sys2Proof/Machine/Flags.lean ====
section
/-! DEFINITION. The levels, flags and conditions that the manual computes from state: severities, the levels of the three
output pins, the PAUSE hysteresis, fullness of the rehearsal log, deferral of examination, and whether a timer is due. -/

namespace Sys2Proof.Machine

/-- The severity belongs to the kind (Table 9.1). -/
def FaultKind.severity : FaultKind → Severity
  | .unknownSource | .duplicateTag | .strayFinish | .overlengthFinish | .linkCheck => .minor
  | .linkResync | .finishLapse | .poolExhausted | .portStranded => .major

/-- The place of a fault kind in the kinds-seen set: its code less 1 (R171, Table 11.4). -/
def FaultKind.index : FaultKind → Nat
  | .unknownSource => 0 | .duplicateTag => 1 | .strayFinish => 2 | .overlengthFinish => 3 | .linkCheck => 4
  | .linkResync => 5 | .finishLapse => 6 | .poolExhausted => 7 | .portStranded => 8

def FaultKind.mask (k : FaultKind) : BitVec 9 := 1#9 <<< k.index

/-- The notice code, the place of a kind in a set of notice kinds (R171, Table 11.4). -/
def NoticeKind.index : NoticeKind → Nat
  | .fault => 0 | .commit => 1 | .grade => 2 | .pool => 3 | .strand => 4 | .rehearsal => 5

def NoticeKind.mask (k : NoticeKind) : NoticeSet := 1#6 <<< k.index

/-- The set that holds one port (R171). -/
def portMask (p : PortNo) : PortSet := 1#16 <<< p.val

/-- The numeric value of a grade, the g of the arithmetic (Table 6.1). -/
def gradeValue : Grade → Nat
  | .down => 0 | .quarter => 1 | .half => 2 | .full => 4

/-- At least one kind is both pending and enabled (R146). -/
def State.attnLevel (s : State) : Bool := s.mg.notices.pending &&& s.mg.enables != 0

/-- ALERT is low in RESYNC, and in SYNCED while the check pulse runs (R126). -/
def SwitchUnit.alertLow (u : SwitchUnit) : Bool := u.link == .resync || u.checkPulse.isSome

/-- The levels of the pins: while RST_N is low ATTN and PAUSE are negated and ALERT is low (R148); else ATTN follows
R146, ALERT follows R126 and PAUSE follows the PAUSE state (R129). -/
def State.pinLevels (s : State) : Pins :=
  if s.pins.rstN then
    { rstN := true, attn := s.attnLevel, alertLow := s.sw.alertLow, pause := s.pool.pause }
  else { rstN := false, attn := false, alertLow := true, pause := false }

/-- The PAUSE state after a re-evaluation (R55). -/
def Pool.pauseNext (p : Pool) : Bool :=
  if p.pause then !decide (p.highMark ≤ p.free) else decide (p.free ≤ p.lowMark)

/-- The free places of the rehearsal log: entries, reserved and free places together number 64 (R160). -/
def RehearsalLog.freePlaces (l : RehearsalLog) : Nat := 64 - l.entries.length - l.reserved

/-- The log is full when fewer than two places are free (R160). -/
def RehearsalLog.full (l : RehearsalLog) : Bool := decide (l.freePlaces < 2)

/-- Examination of received bytes is deferred while the outbound queue holds more than 4,000 frames (R119). -/
def SwitchUnit.deferred (u : SwitchUnit) : Bool := decide (4000 < u.outq.length)

/-- A port's tag set is the tags of its queued and awarded records (R47). -/
def Port.tagInUse (P : Port) (tag : Tag) : Bool :=
  P.active.toList.any (fun r => r.queue.any (fun b => b.tag == tag)) || P.awards.any (fun a => a.bid.tag == tag)

/-- A timer of the port has no time left: its expiry is due. -/
def Port.timerDue (P : Port) : Bool :=
  P.accrualTimer == 0 || P.run.any (fun r => r.timer == 0) || P.awards.any (fun a => a.timer == 0)
    || P.holdDownTimer == some 0

/-- The gap time of an incomplete frame has passed: its abandonment is due (R135). -/
def Assembly.gapDue (a : Assembly) : Bool := a.gap == 0 && !Wire.isComplete a.chars

/-- An expiry of some timer of the part is due. -/
def State.timerDue (s : State) : Bool :=
  s.ports.toList.any Port.timerDue || s.sw.checkPulse == some 0 || s.mg.assembly.any Assembly.gapDue

end Sys2Proof.Machine
end

