-- ==== Sys2Proof/Machine/Operands.lean ====
section
/-! DEFINITION. The operands of the commands: range tests of port, class and entry numbers, the coded fields, and the
clamping of numeric fields (R6, R22 to R24, R41, R56, R115, R116, R134). -/

namespace Sys2Proof

/-- The length of a bid is its coded length plus 1 (R169). -/
def BidBody.length (b : BidBody) : Nat := b.codedLength.toNat + 1

end Sys2Proof

namespace Sys2Proof.Machine

/-- A port or class byte of 0..15; none above 15. -/
def index16 (b : Byte) : Option (Fin 16) := if h : b.toNat < 16 then some ⟨b.toNat, h⟩ else none

/-- An entry byte of 0..63; none above 63 (R41, R43). -/
def index64 (b : Byte) : Option (Fin 64) := if h : b.toNat < 64 then some ⟨b.toNat, h⟩ else none

/-- A field with the two codes 0 and 1 (Table 11.4). -/
def flagOf (b : Byte) : Option Bool := if b = 0 then some false else if b = 1 then some true else none

def laneOf (b : Byte) : Option Lane :=
  if b = 0 then some .prime else if b = 1 then some .main else if b = 2 then some .backfill else none

def modeOf (b : Byte) : Option Mode :=
  if b = 0 then some .off else if b = 1 then some .live else if b = 2 then some .frozen
  else if b = 3 then some .rehearsal else none

def prescaleOf (b : Byte) : Option Prescale := if b = 0 then some .us1 else if b = 1 then some .us16 else none

def admissionOf (b : Byte) : Option Admission := if b = 0 then some .admitted else if b = 1 then some .muted else none

def counterEventOf (b : Byte) : Option CounterEvent :=
  match b.toNat with
  | 0 => some .arrivals | 1 => some .declines | 2 => some .awards | 3 => some .awardBytes
  | 4 => some .floorAwards | 5 => some .ceilingAwards | 6 => some .runAwards | 7 => some .lapses
  | _ => none

/-- A set of notice kinds; bits 6 and 7 are ignored (R171). -/
def noticeSetOf (b : Byte) : NoticeSet := b.extractLsb' 0 6

/-- The nearest value in range (R6). -/
def clamp (lo hi n : Nat) : Nat := max lo (min n hi)

/-! ## CONTRACT-STAGE (R5 to R7) -/

/-- The numeric fields of a CONTRACT-STAGE request brought into the ranges of Table 1.1 (R6, Table 1.3). -/
structure StagedNumbers where
  floorShare : Nat
  ceilingShare : Nat
  floorBurst : Nat
  ceilingBurst : Nat
  queueLimit : Nat
  runHold : Nat
  deriving DecidableEq, Repr

def givenNumbers (b : ContractBody) : StagedNumbers :=
  { floorShare := b.floorShare.toNat, ceilingShare := b.ceilingShare.toNat, floorBurst := b.floorBurst.toNat,
    ceilingBurst := b.ceilingBurst.toNat, queueLimit := b.queueLimit.toNat, runHold := b.runHold.toNat }

def StagedNumbers.clamped (n : StagedNumbers) : StagedNumbers :=
  { floorShare := clamp 0 1024 n.floorShare, ceilingShare := clamp 1 1024 n.ceilingShare,
    floorBurst := clamp 0 65535 n.floorBurst, ceilingBurst := clamp 1 65535 n.ceilingBurst,
    queueLimit := clamp 1 255 n.queueLimit, runHold := clamp 0 65535 n.runHold }

/-- Some field of the request was outside its range (R6). -/
def wasClamped (b : ContractBody) : Bool := (givenNumbers b).clamped != givenNumbers b

/-- The contract of a consistent request: its codes are defined, f ≤ c, and the floor burst is at most the ceiling
burst, all after clamping; none for an inconsistent one (R5 step 4, R7). -/
def consistentContract (b : ContractBody) : Option Contract :=
  let n := (givenNumbers b).clamped
  match flagOf b.valid, laneOf b.lane, flagOf b.isProtected with
  | some v, some l, some pr =>
    if n.floorShare ≤ n.ceilingShare ∧ n.floorBurst ≤ n.ceilingBurst then
      some { valid := v, lane := l, floorShare := n.floorShare, ceilingShare := n.ceilingShare,
             floorBurst := n.floorBurst, ceilingBurst := n.ceilingBurst, isProtected := pr,
             queueLimit := n.queueLimit, runHold := n.runHold }
    else none
  | _, _, _ => none

/-- The contract would break a locked cell: invalid, unprotected, or below the locked floor (R8, R11 check 3). -/
def LockCell.brokenBy (l : LockCell) (c : Contract) : Bool :=
  l.locked && (!c.valid || !c.isProtected || decide (c.floorShare < l.floor))

/-! ## PORT-SET (R22 to R24, R115 to R117) -/

/-- The six settings of a PORT-SET request after clamping, with the prescale already read. -/
def clampedSettings (b : SettingsBody) (ps : Prescale) : PortSettings :=
  { baseRate := clamp 1 12500 b.baseRate.toNat, interval := clamp 1 255 b.interval.toNat, prescale := ps,
    window := clamp 1 8 b.window.toNat, finishDeadline := clamp 1 65535 b.finishDeadline.toNat,
    holdDown := b.holdDown.toNat }

/-- Some setting of the request was clamped (R22 step 4). -/
def settingsClamped (b : SettingsBody) : Bool :=
  clamp 1 12500 b.baseRate.toNat != b.baseRate.toNat || clamp 1 255 b.interval.toNat != b.interval.toNat
    || clamp 1 8 b.window.toNat != b.window.toNat || clamp 1 65535 b.finishDeadline.toNat != b.finishDeadline.toNat

def Prescale.micros : Prescale → Nat
  | .us1 => 1
  | .us16 => 16

/-- The accrual period T, the interval times the prescale, in µs (R24). -/
def PortSettings.period (s : PortSettings) : Nat := s.interval * s.prescale.micros

/-! ## POOL-SET (R56) -/

/-- The marks that a POOL-SET stores: the low mark, the high mark (R56 steps 1 to 3). -/
def clampedMarks (lo hi : Nat) : Nat × Nat :=
  let l := min lo 2047
  let h := clamp 1 2048 hi
  (l, if h ≤ l then l + 1 else h)

/-! ## LINE-RATE (R134) -/

/-- A divider of 0 or 1 is stored as 2 (R134). -/
def clampedDivider (d : BitVec 16) : BitVec 16 := if d.toNat < 2 then 2 else d

end Sys2Proof.Machine
end

