-- ==== Sys2Proof/Machine/Ops.lean ====
section
/-! DEFINITION. The named operations that the commands share: access to ports, classes and source entries, the passage
of time, the outbound queues and notices, fault reports and counter events, the return of a record to the bid pool, and
the frame that every event has (RST_N, transmissions, pins). -/

namespace Sys2Proof.Machine

/-! ## Access -/

/-- The ports in ascending order, and likewise the classes. -/
def ascending : List (Fin 16) := [0, 1, 2, 3, 4, 5, 6, 7, 8, 9, 10, 11, 12, 13, 14, 15]

def State.port (s : State) (p : PortNo) : Port := s.ports[p]

def State.setPort (s : State) (p : PortNo) (P : Port) : State := { s with ports := s.ports.set p.val P p.isLt }

def State.mapPort (s : State) (p : PortNo) (f : Port → Port) : State := s.setPort p (f (s.port p))

def State.source (s : State) (e : EntryNo) : SourceEntry := s.sources[e]

def State.setSource (s : State) (e : EntryNo) (x : SourceEntry) : State :=
  { s with sources := s.sources.set e.val x e.isLt }

def Port.row (P : Port) (c : ClassNo) : Row := P.active[c]

def Port.setRow (P : Port) (c : ClassNo) (r : Row) : Port := { P with active := P.active.set c.val r c.isLt }

def Port.mapRow (P : Port) (c : ClassNo) (f : Row → Row) : Port := P.setRow c (f (P.row c))

def Port.stagedRow (P : Port) (c : ClassNo) : Contract := P.staged[c]

def Port.setStaged (P : Port) (c : ClassNo) (x : Contract) : Port :=
  { P with staged := P.staged.set c.val x c.isLt }

def Port.lockCell (P : Port) (c : ClassNo) : LockCell := P.locks[c]

def Port.setLock (P : Port) (c : ClassNo) (l : LockCell) : Port := { P with locks := P.locks.set c.val l c.isLt }

/-- All queued records of the port, in ascending class order and from head to tail within each queue. -/
def Port.queued (P : Port) : List BidRecord := ascending.flatMap (fun c => (P.row c).queue)

/-- The number of records in the row queues of the port. -/
def Port.queuedCount (P : Port) : Nat := (P.active.toList.map (fun r => r.queue.length)).sum

/-- The port with every row queue empty. -/
def Port.clearQueues (P : Port) : Port := { P with active := P.active.map (fun r => { r with queue := [] }) }

/-- The class whose row queue holds a record with the tag. -/
def Port.queuedClass (P : Port) (tag : Tag) : Option ClassNo :=
  ascending.find? (fun c => (P.row c).queue.any (fun b => b.tag == tag))

/-- The queued record with the tag. -/
def Port.queuedRecord (P : Port) (tag : Tag) : Option BidRecord := P.queued.find? (fun b => b.tag == tag)

/-- The award-list record with the tag. -/
def Port.award? (P : Port) (tag : Tag) : Option AwardRecord := P.awards.find? (fun a => a.bid.tag == tag)

/-- The award list without the record of the tag; the records before and after it keep their order (R83). -/
def Port.removeAward (P : Port) (tag : Tag) : Port :=
  { P with awards := P.awards.eraseP (fun a => a.bid.tag == tag) }

/-- The number of records in all row queues of the part (R57). -/
def State.queuedCount (s : State) : Nat := (s.ports.toList.map Port.queuedCount).sum

/-- The number of records on all award lists of the part (R57). -/
def State.awardedCount (s : State) : Nat := (s.ports.toList.map (fun P => P.awards.length)).sum

/-! ## The passage of time -/

/-- `n` µs pass at the port's timers; a timer with less than `n` left stands at 0, its expiry due. -/
def Port.elapse (n : Nat) (P : Port) : Port :=
  { P with
    accrualTimer := P.accrualTimer - n
    run := P.run.map (fun r => { r with timer := r.timer - n })
    awards := P.awards.map (fun a => { a with timer := a.timer - n })
    holdDownTimer := P.holdDownTimer.map (· - n) }

/-- `n` µs pass on the time base and at every timer measured against it (00_scope 2.2, R148). -/
def State.elapse (n : Nat) (s : State) : State :=
  { s with
    timeBase := s.timeBase + BitVec.ofNat 32 n
    ports := s.ports.map (Port.elapse n)
    sw := { s.sw with checkPulse := s.sw.checkPulse.map (· - n) }
    mg := { s.mg with assembly := s.mg.assembly.map (fun a => { a with gap := a.gap - n }) } }

/-! ## Frames to the switch, notices, faults, counters -/

/-- A frame joins the tail of the outbound queue of the switch link (R127). -/
def State.pushSwitch (s : State) (f : SwOut) : State := { s with sw := { s.sw with outq := s.sw.outq ++ [f] } }

/-- A NOTICE is waiting whose transmission has not begun (R143). -/
def MgUnit.noticeWaiting (u : MgUnit) : Bool := u.outq.any (fun f => f == .notice none)

/-- A NOTICE is called for: it joins the queue, unless one is waiting that serves for the new call (R143). -/
def State.callNotice (s : State) : State :=
  if s.mg.noticeWaiting then s else { s with mg := { s.mg with outq := s.mg.outq ++ [.notice none] } }

/-- The cause of a notice kind is reported: the kind joins the pending set, and a NOTICE is called for if the kind is
enabled (R142, R143). -/
def State.noticeCause (s : State) (k : NoticeKind) : State :=
  let s' := { s with mg := { s.mg with notices := { s.mg.notices with pending := s.mg.notices.pending ||| k.mask } } }
  if s.mg.enables &&& k.mask != 0 then s'.callNotice else s'

/-- A cause of GRADE adds its port to the GRADE changed set (R142). -/
def State.gradeCause (s : State) (p : PortNo) : State :=
  { s with mg := { s.mg with notices := { s.mg.notices with
      gradePorts := s.mg.notices.gradePorts ||| portMask p } } }.noticeCause .grade

/-- A cause of STRAND adds its port to the STRAND port set (R142). -/
def State.strandCause (s : State) (p : PortNo) : State :=
  { s with mg := { s.mg with notices := { s.mg.notices with
      strandPorts := s.mg.notices.strandPorts ||| portMask p } } }.noticeCause .strand

/-- What a reported fault does to the fault record: the unit after it, and whether it is a cause of the FAULT notice
(R151, Table 9.3). -/
def FaultUnit.report (u : FaultUnit) (f : FaultReport) : FaultUnit × Bool :=
  let u := { u with kindsSeen := u.kindsSeen ||| f.kind.mask }
  if u.ignoreMinor && f.kind.severity == .minor then (u, false)
  else match u.held with
    | none => ({ u with held := some f }, true)
    | some h =>
      match h.kind.severity, f.kind.severity with
      | .minor, .minor => ({ u with moreMinor := true }, false)
      | .minor, .major => ({ u with held := some f, moreMinor := true }, true)
      | .major, .major => ({ u with moreMajor := true }, false)
      | .major, .minor => ({ u with moreMinor := true }, false)

/-- A fault is reported to the fault record unit, which reports a cause of the FAULT notice as part of the same event
(R149, R151). -/
def State.reportFault (s : State) (f : FaultReport) : State :=
  let (u, cause) := s.faults.report f
  let s := { s with faults := u }
  if cause then s.noticeCause .fault else s

/-- A fault with no field but its kind and time (R121, R122). -/
def State.plainFault (s : State) (k : FaultKind) : FaultReport :=
  { kind := k, time := s.timeBase, port := none, cls := none, source := none, tag := none, address := none }

/-- The greatest value of a counter (R156). -/
def counterMax : Nat := 4294967295

/-- A counter event of `n`: it adds to A if it is the selected kind, and to B as well if it carries the selected class;
both saturate (R157). -/
def CounterPair.count (x : CounterPair) (ev : CounterEvent) (cls : Option ClassNo) (n : Nat) : CounterPair :=
  if x.event = ev then
    { x with a := min (x.a + n) counterMax
             b := if cls = some x.cls then min (x.b + n) counterMax else x.b }
  else x

/-- A counter event of the port (R157). -/
def Port.count (P : Port) (ev : CounterEvent) (cls : Option ClassNo) (n : Nat) : Port :=
  { P with counters := P.counters.count ev cls n }

def State.count (s : State) (p : PortNo) (ev : CounterEvent) (cls : Option ClassNo) (n : Nat) : State :=
  s.mapPort p (fun P => P.count ev cls n)

/-! ## The bid pool -/

/-- The PAUSE state is re-evaluated; its assertion is a cause of the POOL notice (R55). -/
def State.evaluatePause (s : State) : State :=
  let s' := { s with pool := { s.pool with pause := s.pool.pauseNext } }
  if !s.pool.pause && s.pool.pauseNext then s'.noticeCause .pool else s'

def State.setFree (s : State) (n : Nat) : State := { s with pool := { s.pool with free := n } }

/-- A record that has left its queue or award list returns to the pool: the free count rises, the outstanding count of
its source falls, and PAUSE is re-evaluated (R46). Its tag has left the tag set with it. -/
def State.returnRecord (s : State) (r : BidRecord) : State :=
  let x := s.source r.source
  ((s.setSource r.source { x with outstanding := x.outstanding - 1 }).setFree (s.pool.free + 1)).evaluatePause

/-- Records are returned one after another (R46). -/
def State.returnRecords (s : State) (rs : List BidRecord) : State := rs.foldl State.returnRecord s

/-- A queued record that has been removed is declined: the DECLINE, unless the port is in REHEARSAL, the return, and
the DECLINES counter event (R17, R60, R103, R112). -/
def State.declineRecord (p : PortNo) (cause : Cause) (s : State) (r : BidRecord) : State :=
  let s := if (s.port p).mode = .rehearsal then s else s.pushSwitch (.decline p r.tag cause)
  (s.returnRecord r).count p .declines (some r.cls) 1

/-- The records are declined in order. -/
def State.declineRecords (s : State) (p : PortNo) (cause : Cause) (rs : List BidRecord) : State :=
  rs.foldl (State.declineRecord p cause) s

/-- Every queued record of the port is declined, in ascending class order and from head to tail (R60, R103, R112). -/
def State.declineQueues (s : State) (p : PortNo) (cause : Cause) : State :=
  (s.mapPort p Port.clearQueues).declineRecords p cause (s.port p).queued

/-- Every queued and awarded record of the port is dropped without a frame, a refund or a counter event, the queues in
class and queue order and then the award list, oldest first; the run record becomes CLOSED (R94, R95, R105). -/
def State.dropRecords (s : State) (p : PortNo) : State :=
  let P := s.port p
  (s.setPort p { P.clearQueues with awards := [], run := none }).returnRecords
    (P.queued ++ P.awards.map (fun a => a.bid))

/-! ## The frame of every event -/

/-- The transmission of the frame at the head of a management queue begins; a NOTICE takes its content, or leaves the
queue unsent if no enabled kind is pending (R139, R143). The flag says whether a frame is in transmission. -/
def beginFrames (enabledPending : Bool) (content : NoticeRecord) : List MgOut → List MgOut × Bool
  | [] => ([], false)
  | .reply r :: rest => (.reply r :: rest, true)
  | .notice (some n) :: rest => (.notice (some n) :: rest, true)
  | .notice none :: rest =>
    if enabledPending then (.notice (some content) :: rest, true) else beginFrames enabledPending content rest

/-- If the line is idle the transmission of the next frame begins when the event is complete (R139); between the end of
a RESET reply and its warm reset no frame begins (R147). -/
def State.beginManagement (s : State) : State :=
  if s.mg.sending || s.mg.resetStage == .replySent then s
  else
    let (q, b) := beginFrames s.attnLevel s.mg.notices s.mg.outq
    { s with mg := { s.mg with outq := q, sending := b } }

/-- The switch link sends whenever its outbound queue holds a frame (R127). -/
def State.beginSwitch (s : State) : State := { s with sw := { s.sw with sending := !s.sw.outq.isEmpty } }

/-- The pins follow the state (R126, R129, R146, R148). -/
def State.drivePins (s : State) : State := { s with pins := s.pinLevels }

/-- The end of an event: idle lines begin their next frame, and the pins follow. -/
def State.settle (s : State) : State := s.beginManagement.beginSwitch.drivePins

/-- One event of the part: while RST_N is low the part takes no event (R148). -/
def event (f : State → State) (s : State) : Host.Outcome State Fault Refusal :=
  .next (if s.pins.rstN then (f s).settle else s)

end Sys2Proof.Machine
end

