-- ==== Sys2Proof/Machine/Accounts.lean ====
section
/-! DEFINITION. The account arithmetic of an accrual unit (Chapter 2): effective shares at each grade (R28 to R31),
accrual (R32), charges (R34, R35) and refunds (R36). -/

namespace Sys2Proof.Machine

/-! ## Effective shares -/

/-- k = 4 / g at a grade above DOWN (R28). -/
def gradeBoost (g : Grade) : Nat := 4 / gradeValue g

/-- The demand d of a protected row: the lesser of 1024 and f × k (R29). -/
def demand (k : Nat) (c : Contract) : Nat := min 1024 (c.floorShare * k)

def Contract.validProtected (c : Contract) : Bool := c.valid && c.isProtected

def Contract.validUnprotected (c : Contract) : Bool := c.valid && !c.isProtected

/-- S, the sum of the demands of the valid protected rows (R29). -/
def protectedDemand (k : Nat) (cs : List Contract) : Nat := ((cs.filter Contract.validProtected).map (demand k)).sum

/-- The effective floor share of a valid protected row (R29). -/
def protectedShare (k : Nat) (cs : List Contract) (c : Contract) : Nat :=
  let S := protectedDemand k cs
  if S ≤ 1024 then demand k c else demand k c * 1024 / S

/-- L, what the protected rows leave (R30). -/
def leftForUnprotected (k : Nat) (cs : List Contract) : Nat :=
  1024 - ((cs.filter Contract.validProtected).map (protectedShare k cs)).sum

/-- U, the sum of f over the valid unprotected rows (R30). -/
def unprotectedSum (cs : List Contract) : Nat := ((cs.filter Contract.validUnprotected).map Contract.floorShare).sum

/-- The effective floor share of a valid unprotected row (R30). -/
def unprotectedShare (k : Nat) (cs : List Contract) (c : Contract) : Nat :=
  let L := leftForUnprotected k cs
  let U := unprotectedSum cs
  if U ≤ L then c.floorShare else c.floorShare * L / U

/-- The effective shares e and ce of a row, among the contracts of its port (R28 to R31). -/
def effectiveShares (k : Nat) (cs : List Contract) (c : Contract) : Nat × Nat :=
  if !c.valid then (0, 0)
  else if c.isProtected then (protectedShare k cs c, max c.ceilingShare (protectedShare k cs c))
  else (unprotectedShare k cs c, c.ceilingShare)

/-- The contracts of the active rows of a port. -/
def Port.contracts (P : Port) : List Contract := P.active.toList.map Row.contract

/-- The effective shares of all 16 rows are recomputed at a grade, which becomes the reference grade (R28). -/
def Port.recomputeShares (P : Port) (g : Grade) : Port :=
  let cs := P.contracts
  { P with
    referenceGrade := g
    active := P.active.map (fun r =>
      { r with e := (effectiveShares (gradeBoost g) cs r.contract).1
               ce := (effectiveShares (gradeBoost g) cs r.contract).2 }) }

/-! ## Accrual -/

/-- The bound of an account: its burst, given in KiB, in bytes (Table 1.1). -/
def burstBytes (kib : Nat) : Int := (kib * 1024 : Nat)

/-- The accrual of a valid row from R × T × g: each account gains the whole bytes, the part below one byte is carried in
the remainder, and the account is clamped at its burst (R32). -/
def Row.accrue (rtg : Nat) (r : Row) : Row :=
  if !r.contract.valid then r
  else
    let totalF := rtg * r.e + r.rf
    let totalC := rtg * r.ce + r.rc
    { r with
      fb := min (r.fb + (totalF / 4096 : Nat)) (burstBytes r.contract.floorBurst)
      rf := totalF % 4096
      cb := min (r.cb + (totalC / 4096 : Nat)) (burstBytes r.contract.ceilingBurst)
      rc := totalC % 4096 }

/-- The accrual made at an expiry: R, the period just ended and the grade as they stand (R27, R32). -/
def Port.accrue (P : Port) : Port :=
  { P with active := P.active.map (Row.accrue (P.settings.baseRate * P.loadedPeriod * gradeValue P.grade)) }

/-! ## Charges and refunds -/

/-- The lowest value of a ceiling account (R35). -/
def ceilingFloor : Int := -4194304

/-- The charge of an award: a FLOOR charge takes the cost from FB and CB, a CEILING charge from CB only; CB saturates
(R34, R35). -/
def Row.charge (kind : Charge) (cost : Nat) (r : Row) : Row :=
  let cb := max (r.cb - (cost : Int)) ceilingFloor
  match kind with
  | .floor => { r with fb := r.fb - (cost : Int), cb := cb }
  | .ceiling => { r with cb := cb }

/-- The refund of a finish: a FLOOR record's refund is added to FB and CB, a CEILING record's to CB only; each account
that received it is clamped at its burst (R36). -/
def Row.refund (kind : Charge) (amount : Nat) (r : Row) : Row :=
  let cb := min (r.cb + (amount : Int)) (burstBytes r.contract.ceilingBurst)
  match kind with
  | .floor => { r with fb := min (r.fb + (amount : Int)) (burstBytes r.contract.floorBurst), cb := cb }
  | .ceiling => { r with cb := cb }

/-- The account that a charge kind draws on for eligibility: FB for FLOOR, CB for CEILING (R37). -/
def Row.credit (kind : Charge) (r : Row) : Int :=
  match kind with
  | .floor => r.fb
  | .ceiling => r.cb

end Sys2Proof.Machine
end

