-- ==== Sys2Proof/Machine/Ladder.lean ====
section
/-! DEFINITION. The award scheduler's selection (Chapter 4): when a port may award (R62), the cyclic scan (R65), the steps
of a pass (R66 to R70), the making of an award (R72 to R76, R162) and the selection ladder (R64). -/

namespace Sys2Proof.Machine

/-! ## Pointers and scans -/

/-- The pointer of a lane for floor or ceiling awards (R61). -/
def Pointers.get (x : Pointers) : Lane → Charge → ClassNo
  | .prime, .floor => x.primeFloor
  | .prime, .ceiling => x.primeCeiling
  | .main, .floor => x.mainFloor
  | .main, .ceiling => x.mainCeiling
  | .backfill, .floor => x.backfillFloor
  | .backfill, .ceiling => x.backfillCeiling

def Pointers.set (x : Pointers) (l : Lane) (k : Charge) (c : ClassNo) : Pointers :=
  match l, k with
  | .prime, .floor => { x with primeFloor := c }
  | .prime, .ceiling => { x with primeCeiling := c }
  | .main, .floor => { x with mainFloor := c }
  | .main, .ceiling => { x with mainCeiling := c }
  | .backfill, .floor => { x with backfillFloor := c }
  | .backfill, .ceiling => { x with backfillCeiling := c }

/-- The classes a scan examines from a pointer holding p: p + 1, …, 15, 0, …, p (R65). -/
def scanOrder (p : ClassNo) : List ClassNo := ascending.map (fun i => p + 1 + i)

/-- The condition of a scan on a row: valid, in the lane, a record queued, the account above 0 (R65). -/
def Row.meets (l : Lane) (k : Charge) (r : Row) : Bool :=
  r.contract.valid && r.contract.lane == l && !r.queue.isEmpty && decide (0 < r.credit k)

/-- The class that the scan of a lane chooses, from that lane's pointer (R65). -/
def Port.scan (P : Port) (l : Lane) (k : Charge) : Option ClassNo :=
  (scanOrder (P.pointers.get l k)).find? (fun c => (P.row c).meets l k)

/-! ## One pass -/

/-- How a bid was selected: by a scan of a lane (steps 1, 3 and 4), or by the run continuation (step 2). -/
inductive Via where
  | scan (lane : Lane)
  | run
  deriving DecidableEq, Repr

/-- What a pass selects: the class whose head record is awarded, the charge kind, and the step. -/
structure Selection where
  cls : ClassNo
  charge : Charge
  via : Via
  deriving DecidableEq, Repr

/-- A scan as a step of the ladder. -/
def Port.scanStep (P : Port) (l : Lane) (k : Charge) : Option Selection :=
  (P.scan l k).map (fun c => { cls := c, charge := k, via := .scan l })

/-- The head record of the run class's row continues the run: the row is valid, the head carries the run source and the
run key, and FB > 0 or CB > 0 (R67). -/
def Run.continuedBy (x : Run) (r : Row) : Bool :=
  r.contract.valid && r.queue.head?.any (fun b => b.source == x.source && b.key == x.key)
    && (decide (0 < r.fb) || decide (0 < r.cb))

/-- Step 2, the run continuation: a run award where the conditions of R67 hold. -/
def Port.runStep (P : Port) : Option Selection :=
  match P.run with
  | none => none
  | some x =>
    if x.continuedBy (P.row x.cls) then
      some { cls := x.cls, charge := if 0 < (P.row x.cls).fb then .floor else .ceiling, via := .run }
    else none

/-- Steps 3 and 4: the MAIN and BACKFILL floors, then the ceilings of PRIME, MAIN and BACKFILL (R68, R69). -/
def Port.laneSteps (P : Port) : Option Selection :=
  (P.scanStep .main .floor).or ((P.scanStep .backfill .floor).or
    ((P.scanStep .prime .ceiling).or ((P.scanStep .main .ceiling).or (P.scanStep .backfill .ceiling))))

/-- One pass of the ladder: step 1 leaves the run as it stands; a run that step 2 does not continue closes before step 3
(R66 to R70). The result is the port after any closing, and what the pass yields. -/
def Port.pass (P : Port) : Port × Option Selection :=
  match P.scanStep .prime .floor with
  | some x => (P, some x)
  | none =>
    match P.runStep with
    | some x => (P, some x)
    | none => ({ P with run := none }, P.laneSteps)

/-! ## Making an award -/

/-- The award-list record of a bid awarded now (R72): the deadline is the award time plus the finish deadline setting,
in units of 10 µs. -/
def Port.awardRecord (P : Port) (x : Selection) (b : BidRecord) (now : Stamp) : AwardRecord :=
  { bid := b, charge := x.charge, awardTime := now,
    deadline := now + BitVec.ofNat 32 (P.settings.finishDeadline * 10),
    timer := P.settings.finishDeadline * 10, refundable := true }

/-- The pointers after an award: the pointer that was scanned is set to the class (R71). -/
def Selection.movePointers (x : Selection) (ps : Pointers) : Pointers :=
  match x.via with
  | .scan l => ps.set l x.charge x.cls
  | .run => ps

/-- The award was made at step 3 or step 4, where a run may open; step 1 is the PRIME floor scan (R76). -/
def Selection.opensRun (x : Selection) : Bool :=
  match x.via, x.charge with
  | .scan .prime, .floor => false
  | .scan _, _ => true
  | .run, _ => false

/-- The run record after an award of `b` in row `r` (R76). -/
def Selection.runAfter (x : Selection) (r : Row) (b : BidRecord) (run : Option Run) : Option Run :=
  if x.opensRun && run.isNone && decide (0 < r.contract.runHold) then
    some { cls := b.cls, source := b.source, key := b.key, timer := r.contract.runHold }
  else run

/-- The counter events of an award (R75). -/
def Port.countAward (P : Port) (x : Selection) (b : BidRecord) : Port :=
  let P := (P.count .awards (some b.cls) 1).count .awardBytes (some b.cls) b.length
  let P := match x.charge with
    | .floor => P.count .floorAwards (some b.cls) 1
    | .ceiling => P.count .ceilingAwards (some b.cls) 1
  if x.via = .run then P.count .runAwards (some b.cls) 1 else P

/-- What an award does to its port: the head record moves to the tail of the award list, the row is charged, the pointer
moves, a run may open, and the counters count (R71 to R73, R75, R76). -/
def Port.award (P : Port) (x : Selection) (b : BidRecord) (rest : List BidRecord) (now : Stamp) : Port :=
  let r := P.row x.cls
  let P' := P.setRow x.cls ({ r with queue := rest }.charge x.charge b.length)
  { P' with
    awards := P.awards ++ [P.awardRecord x b now]
    pointers := x.movePointers P.pointers
    run := x.runAfter r b P.run }.countAward x b

/-- An entry is appended to the rehearsal log; the first one is a cause of the REHEARSAL notice (R162, R165). -/
def State.writeLog (s : State) (en : LogEntry) : State :=
  let s' := { s with log := { s.log with entries := s.log.entries ++ [en] } }
  if s.log.entries.isEmpty then s'.noticeCause .rehearsal else s'

def State.setReserved (s : State) (n : Nat) : State := { s with log := { s.log with reserved := n } }

/-- The log entry of a record (Table 10.1). -/
def logEntry (kind : LogKind) (p : PortNo) (b : BidRecord) (charge : Charge) (now : Stamp) : LogEntry :=
  { kind := kind, port := p, tag := b.tag, cls := b.cls, charge := charge, length := b.length, time := now }

/-- How an award is told: by AWARD on a LIVE port; on a port in REHEARSAL by a log entry, with a second place reserved
for the record (R74, R162). -/
def State.tellAward (s : State) (p : PortNo) (x : Selection) (b : BidRecord) : State :=
  match (s.port p).mode with
  | .rehearsal => (s.writeLog (logEntry .award p b x.charge s.timeBase)).setReserved (s.log.reserved + 1)
  | _ => s.pushSwitch (.award p b.tag)

/-- An award, one change at the end of the pass that yields it (R72 to R76). -/
def State.award (s : State) (p : PortNo) (x : Selection) : State :=
  let P := s.port p
  match (P.row x.cls).queue with
  | [] => s
  | b :: rest => (s.setPort p (P.award x b rest s.timeBase)).tellAward p x b

/-! ## The ladder -/

/-- When a port may award (R62). -/
def State.mayAward (s : State) (p : PortNo) : Bool :=
  let P := s.port p
  (P.mode == .live || P.mode == .rehearsal) && P.grade != .down && decide (P.awards.length < P.settings.window)
    && !(P.mode == .rehearsal && s.log.full)

/-- At most `n` passes of the ladder: a pass that yields a bid makes its award, and the next pass begins (R64). -/
def ladderPasses : Nat → PortNo → State → State
  | 0, _, s => s
  | n + 1, p, s =>
    if s.mayAward p then
      match (s.port p).pass with
      | (P, some x) => ladderPasses n p ((s.setPort p P).award p x)
      | (P, none) => s.setPort p P
    else s

/-- A selection opportunity: the ladder runs until the port may not award or a pass yields nothing (R63, R64). Each
award fills a place of the window, so no more than W + 1 passes are taken. -/
def State.ladder (s : State) (p : PortNo) : State := ladderPasses ((s.port p).settings.window + 1) p s

/-- Every port in REHEARSAL has a selection opportunity, in ascending port order (R163). -/
def State.rehearsalOpportunities (s : State) : State :=
  ascending.foldl (fun s p => if (s.port p).mode = .rehearsal then s.ladder p else s) s

/-- The opportunities of R163, where an event has left the log not full that was full before it. -/
def State.afterFreeing (s : State) (fullBefore : Bool) : State :=
  if fullBefore && !s.log.full then s.rehearsalOpportunities else s

end Sys2Proof.Machine
end

