-- ==== Sys2Proof/Machine/Layout.lean ====
section
/-! DEFINITION. What the AB16 sends: the numeric codes (Tables 11.4 and 11.5), the records inside management bodies
(Table 11.6, R171, R172), and the bytes of the frames to the switch and to the host (R168 to R170). -/

namespace Sys2Proof.Machine

open Sys2Proof.Wire (bytes2 bytes3 bytes4 crc8 crc16 portNibble)

/-! ## Numbers as bytes -/

def byte1 (n : Nat) : Byte := BitVec.ofNat 8 n

def nat2 (n : Nat) : List Byte := bytes2 (BitVec.ofNat 16 n)

def nat3 (n : Nat) : List Byte := bytes3 (BitVec.ofNat 24 n)

def nat4 (n : Nat) : List Byte := bytes4 (BitVec.ofNat 32 n)

/-- A four-byte two's-complement value (R171). -/
def int4 (i : Int) : List Byte := bytes4 (BitVec.ofInt 32 i)

def flag (b : Bool) : Byte := if b then 1 else 0

/-- A body of `n` bytes, every byte 0 (R171, refused requests). -/
def zeros (n : Nat) : List Byte := List.replicate n 0

/-- A set of notice kinds as one byte (R171). -/
def noticeByte (x : NoticeSet) : Byte := x.zeroExtend 8

/-! ## Codes -/

def ReplyResult.code : ReplyResult → Byte
  | .ok => 0 | .clamped => 1 | .busy => 2 | .locked => 3 | .inconsistent => 4 | .overcommit => 5
  | .notAllowed => 6 | .unknownKind => 7 | .badFrame => 8

def gradeByte : Grade → Byte
  | .down => 0 | .quarter => 1 | .half => 2 | .full => 4

def Mode.code : Mode → Byte
  | .off => 0 | .live => 1 | .frozen => 2 | .rehearsal => 3

def Lane.code : Lane → Byte
  | .prime => 0 | .main => 1 | .backfill => 2

def Prescale.code : Prescale → Byte
  | .us1 => 0 | .us16 => 1

def Admission.code : Admission → Byte
  | .admitted => 0 | .muted => 1

def LinkState.code : LinkState → Byte
  | .synced => 0 | .resync => 1

def Severity.code : Severity → Byte
  | .minor => 1 | .major => 2

def FaultKind.code (k : FaultKind) : Byte := byte1 (k.index + 1)

def CounterEvent.code : CounterEvent → Byte
  | .arrivals => 0 | .declines => 1 | .awards => 2 | .awardBytes => 3
  | .floorAwards => 4 | .ceilingAwards => 5 | .runAwards => 6 | .lapses => 7

def Charge.code : Charge → Byte
  | .floor => 0 | .ceiling => 1

def LogKind.code : LogKind → Byte
  | .award => 0 | .lapse => 1

def Cause.code : Cause → Byte
  | .portOff => 1 | .portRehearsal => 2 | .portDown => 3 | .unknownSource => 4 | .sourceMuted => 5 | .noAllotment => 6
  | .duplicateTag => 7 | .sourceLimit => 8 | .queueFull => 9 | .poolFull => 10 | .flushed => 11
  | .allotmentWithdrawn => 12

def WithdrawOutcome.code : WithdrawOutcome → Byte
  | .removed => 1 | .late => 2 | .unknown => 3

/-! ## Records (Table 11.6) -/

def Contract.bytes (c : Contract) : List Byte :=
  [flag c.valid, c.lane.code] ++ nat2 c.floorShare ++ nat2 c.ceilingShare ++ nat2 c.floorBurst ++ nat2 c.ceilingBurst
    ++ [flag c.isProtected] ++ nat2 c.queueLimit ++ nat2 c.runHold

/-- The run-time record: FB, CB, r_f, r_c, e, ce, queue count. -/
def Row.runTimeBytes (r : Row) : List Byte :=
  int4 r.fb ++ int4 r.cb ++ nat2 r.rf ++ nat2 r.rc ++ nat2 r.e ++ nat2 r.ce ++ [byte1 r.queue.length]

def SourceEntry.bytes (x : SourceEntry) : List Byte :=
  [flag x.valid] ++ bytes3 x.matchBase ++ bytes3 x.matchMask
    ++ [byte1 x.cls.val, byte1 x.limit, x.admission.code, byte1 x.outstanding]

def PortSettings.bytes (x : PortSettings) : List Byte :=
  nat2 x.baseRate ++ [byte1 x.interval, x.prescale.code, byte1 x.window] ++ nat2 x.finishDeadline ++ nat2 x.holdDown

def LockCell.bytes (l : LockCell) : List Byte := flag l.locked :: nat2 l.floor

/-- Presence bits: 0 port, 1 class, 2 source entry, 3 tag, 4 source address (Table 11.6). -/
def FaultReport.presence (f : FaultReport) : Byte :=
  flag f.port.isSome ||| flag f.cls.isSome <<< 1 ||| flag f.source.isSome <<< 2 ||| flag f.tag.isSome <<< 3
    ||| flag f.address.isSome <<< 4

/-- The held fault's bytes 1 to 15; an absent field is sent as 0 (R171, R172). -/
def FaultReport.bytes (f : FaultReport) : List Byte :=
  [f.kind.code, f.kind.severity.code] ++ bytes4 f.time
    ++ [f.presence, (f.port.map (fun p => byte1 p.val)).getD 0, (f.cls.map (fun c => byte1 c.val)).getD 0,
        (f.source.map (fun e => byte1 e.val)).getD 0] ++ bytes2 (f.tag.getD 0) ++ bytes3 (f.address.getD 0)

/-- The fault record: bytes 1 to 16 are 0 for an EMPTY record, byte 17 onward is filled in both states (R172). -/
def FaultUnit.bytes (u : FaultUnit) : List Byte :=
  flag u.held.isSome :: (match u.held with
    | none => zeros 16
    | some f => f.bytes ++ [flag u.moreMinor ||| flag u.moreMajor <<< 1])
    ++ bytes2 (u.kindsSeen.zeroExtend 16) ++ [flag u.ignoreMinor]

def NoticeRecord.bytes (n : NoticeRecord) : List Byte :=
  noticeByte n.pending :: (bytes2 n.gradePorts ++ bytes2 n.strandPorts)

/-- A queue entry: tag, source entry, length, locality key, accept time. -/
def BidRecord.bytes (b : BidRecord) : List Byte :=
  bytes2 b.tag ++ [byte1 b.source.val] ++ nat3 b.length ++ bytes2 b.key ++ bytes4 b.acceptTime

def LogEntry.bytes (en : LogEntry) : List Byte :=
  [en.kind.code, byte1 en.port.val] ++ bytes2 en.tag ++ [byte1 en.cls.val, en.charge.code] ++ nat3 en.length
    ++ bytes4 en.time

def CounterPair.bytes (x : CounterPair) : List Byte :=
  [x.event.code, byte1 x.cls.val] ++ nat4 x.a ++ nat4 x.b

/-! ## Frames to the switch (R168, R169) -/

/-- The kind code of a frame to the switch (Table 11.1). -/
def SwOut.code : SwOut → Byte
  | .award _ _ => 0x41 | .decline _ _ _ => 0x42 | .withdrawAnswer _ _ _ => 0x43 | .lapse _ _ => 0x44
  | .forgotten => 0x4E | .sync => 0x5A

/-- The body of a frame to the switch (Table 11.2). -/
def SwOut.body : SwOut → List Byte
  | .award p t => portNibble p 0 :: bytes2 t
  | .decline p t c => portNibble p 0 :: (bytes2 t ++ [c.code])
  | .withdrawAnswer p t o => portNibble p 0 :: (bytes2 t ++ [o.code])
  | .lapse p t => portNibble p 0 :: bytes2 t
  | .forgotten => []
  | .sync => []

/-- The whole frame to the switch: kind code, body length, body, CRC-8 (R168). -/
def SwOut.bytes (f : SwOut) : List Byte :=
  let covered := f.code :: byte1 f.body.length :: f.body
  covered ++ [crc8 covered]

/-! ## Frames to the host (R170) -/

/-- A management frame: start marker, body length, kind, body, CRC-16 (R170). -/
def managementBytes (marker kind : Byte) (body : List Byte) : List Byte :=
  let covered := nat2 body.length ++ kind :: body
  marker :: covered ++ bytes2 (crc16 covered)

/-- A reply carries its header, the result and the flags byte, before its body; a NOTICE carries the notice record
alone (R170). -/
def MgOut.bytes : MgOut → List Byte
  | .reply r => managementBytes 0x7E r.kind (r.result.code :: flag r.dropped :: r.body)
  | .notice content => managementBytes 0x7D 0xFF ((content.getD .empty).bytes)

end Sys2Proof.Machine
end

