-- ==== Sys2Proof/Machine/Serve.lean ====
section
/-! DEFINITION. How the management link unit receives characters and frames (R135, R136), serves requests (R137, R138)
and queues replies (R136, R139). -/

namespace Sys2Proof.Machine

open Sys2Proof.Wire (Verdict verdict isComplete kindOf requestFrame)

/-! ## Receiving -/

/-- A complete frame joins the inbound buffer if it holds fewer than 4 frames; else it is discarded and the
dropped-request flag is set (R136). -/
def State.joinInbound (s : State) (f : RequestFrame) : State :=
  if s.mg.inbound.length < 4 then { s with mg := { s.mg with inbound := s.mg.inbound ++ [f] } }
  else { s with mg := { s.mg with dropped := true } }

/-- A frame in assembly whose second CRC-16 character has arrived leaves the assembly and joins the inbound buffer
(R135, R136). -/
def State.completeAssembly (s : State) : State :=
  match s.mg.assembly with
  | some a =>
    if isComplete a.chars then
      { s with mg := { s.mg with assembly := none } }.joinInbound { chars := a.chars, abandoned := false }
    else s
  | none => s

/-- The gap time after a character: 32 × divider µs, with the divider in force (R135). -/
def MgUnit.gapTime (u : MgUnit) : Nat := 32 * u.lineDivider.toNat

/-- A character: discarded in the hunt, or the start marker of a new frame, or taken into the frame in assembly, whose
gap time starts again (R135). A frame that is complete joins the inbound buffer before the next character is seen. -/
def State.receiveCharacter (s : State) (c : Byte) : State :=
  let s := s.completeAssembly
  match s.mg.assembly with
  | some a => { s with mg := { s.mg with assembly := some { chars := a.chars ++ [c], gap := s.mg.gapTime } } }
  | none =>
    if c = Wire.startMarker then { s with mg := { s.mg with assembly := some { chars := [], gap := s.mg.gapTime } } }
    else s

def State.receiveCharacters (s : State) (cs : List Byte) : State := cs.foldl State.receiveCharacter s

/-- The frame in assembly is the complete frame with these characters. -/
def State.assembled (s : State) (cs : List Byte) : Bool := s.mg.assembly.any (fun a => a.chars == cs && isComplete cs)

/-! ## Serving -/

/-- What the owning block gives for a request: its state after the request, the result and body of the reply, what the
end of the reply brings about, and whether a NOTICE is called for behind the reply (R137, R144). -/
structure Served where
  st : State
  result : ReplyResult
  body : List Byte
  onSent : OnSent := .nothing
  callsNotice : Bool := false

/-- The number of reply frames in the outbound queue (R137). -/
def MgUnit.replies (u : MgUnit) : Nat :=
  u.outq.countP (fun f => match f with | .reply _ => true | .notice _ => false)

/-- The unit serves a frame while the queue holds fewer than 15 replies and no RESET awaits its warm reset (R137). -/
def MgUnit.mayServe (u : MgUnit) : Bool := decide (u.replies < 15) && u.resetStage == .idle

/-- The oldest frame may be served now, and its examination gives what the command names (R137, R138). -/
def State.servesNow (s : State) (want : Verdict → Bool) : Bool :=
  s.mg.mayServe && s.mg.inbound.head?.any (fun f => want (verdict f))

/-- A reply joins the tail of the outbound queue, carries the dropped-request flag, and the flag is cleared as it joins
(R136, R137). -/
def State.queueReply (s : State) (kind : Byte) (result : ReplyResult) (body : List Byte) (onSent : OnSent) : State :=
  { s with mg := { s.mg with
      outq := s.mg.outq ++ [.reply { kind := kind, result := result, dropped := s.mg.dropped, body := body,
                                     onSent := onSent }]
      dropped := false } }

/-- The oldest frame leaves the inbound buffer, its owning block acts, and the reply is queued; a NOTICE that the
request calls for joins behind it (R137, R144). -/
def State.serveHead (s : State) (act : State → Served) : State :=
  match s.mg.inbound with
  | [] => s
  | f :: rest =>
    let v := act { s with mg := { s.mg with inbound := rest } }
    let s' := v.st.queueReply (kindOf f) v.result v.body v.onSent
    if v.callsNotice then s'.callNotice else s'

/-- The frame of a serving command is the oldest of the inbound buffer, or else it completes now and joins the buffer,
or is dropped, as R136 states (entry 5). DESIGN CHOICE (entry 28): an incomplete frame in assembly does not take its
characters; the frame passes it, and the assembly stays as it is. -/
def State.offerRequest (s : State) (want : Verdict → Bool) (f : RequestFrame) : State :=
  let s := s.completeAssembly
  if s.servesNow want then s else s.joinInbound f

/-- A serving command: the frame named by the command is offered and, if it is the oldest and may be served, served;
else it waits in the buffer, as do all frames behind it (R137). -/
def State.serve (want : Verdict → Bool) (f : RequestFrame) (act : State → Served) (s : State) : State :=
  let s := s.offerRequest want f
  if s.servesNow want then s.serveHead act else s

/-- The service of the request `i` (R137, R138). -/
def State.serveRequest (i : Instr) (act : State → Served) (s : State) : State :=
  s.serve (fun v => v == .request i) (requestFrame i) act

end Sys2Proof.Machine
end

