-- ==== Sys2Proof/Machine/Allotment.lean ====
section
/-! DEFINITION. The allotment tables and the accrual expiry (Chapter 1, R26): CONTRACT-STAGE, CONTRACT-READ, COMMIT,
ABORT-COMMIT, LOCK, the application of a pending commit, and ACCRUAL_TIMER_EXPIRY. -/

namespace Sys2Proof.Machine

/-! ## CONTRACT-STAGE and CONTRACT-READ -/

/-- The reply of a CONTRACT-STAGE that names a row: the port, the class and the staged row as it stands (R9). -/
def stageReply (pb cb : Byte) (p : PortNo) (c : ClassNo) (r : ReplyResult) (s : State) : Served :=
  { st := s, result := r, body := pb :: cb :: ((s.port p).stagedRow c).bytes }

/-- CONTRACT-STAGE in the order of R5. -/
def serveContractStage (pb cb : Byte) (b : ContractBody) (s : State) : Served :=
  match index16 pb, index16 cb with
  | some p, some c =>
    if (s.port p).commitStatus = .pending then stageReply pb cb p c .busy s
    else match consistentContract b with
      | none => stageReply pb cb p c .inconsistent s
      | some x =>
        if ((s.port p).lockCell c).brokenBy x then stageReply pb cb p c .locked s
        else stageReply pb cb p c (if wasClamped b then .clamped else .ok) (s.mapPort p (fun P => P.setStaged c x))
  | _, _ => { st := s, result := .notAllowed, body := zeros 17 }

/-- CONTRACT_STAGE (R5 to R9). -/
def execContractStage (port cls : Byte) (body : ContractBody) (s : State) : Host.Outcome State Fault Refusal :=
  event (State.serveRequest (.contractStage port cls body) (serveContractStage port cls body)) s

/-- The commit-pending flag is set exactly while the status is PENDING (R1). -/
def Port.commitPending (P : Port) : Bool := P.commitStatus == .pending

/-- CONTRACT-READ: a STAGED reading sends its run-time record as 0 (R10, Table 1.4, R171). DESIGN CHOICE (entry 29): R10
gives no order between its two refusals; a port or class above 15 is examined before an undefined set value, so a request
with both is NOT_ALLOWED. -/
def serveContractRead (pb cb set : Byte) (s : State) : Served :=
  match index16 pb, index16 cb with
  | some p, some c =>
    let P := s.port p
    let tail := (P.lockCell c).bytes ++ [flag P.commitPending]
    if set = 0 then
      { st := s, result := .ok
        body := [pb, cb, set] ++ (P.row c).contract.bytes ++ (P.row c).runTimeBytes ++ tail }
    else if set = 1 then
      { st := s, result := .ok, body := [pb, cb, set] ++ (P.stagedRow c).bytes ++ zeros 17 ++ tail }
    else { st := s, result := .inconsistent, body := zeros 39 }
  | _, _ => { st := s, result := .notAllowed, body := zeros 39 }

/-- CONTRACT_READ (R10). -/
def execContractRead (port cls set : Byte) (s : State) : Host.Outcome State Fault Refusal :=
  event (State.serveRequest (.contractRead port cls set) (serveContractRead port cls set)) s

/-! ## COMMIT and ABORT-COMMIT -/

/-- The mask names the port. -/
def names (m : PortSet) (p : PortNo) : Bool := m.getLsbD p.val

/-- The sum of f over the valid rows of the staged set (R11 check 2). -/
def Port.stagedFloorSum (P : Port) : Nat := ((P.staged.toList.filter Contract.valid).map Contract.floorShare).sum

/-- The first class whose staged row would break its locked cell (R11 check 3). -/
def Port.lockBreaker (P : Port) : Option ClassNo :=
  ascending.find? (fun c => (P.lockCell c).brokenBy (P.stagedRow c))

/-- The first check of R11 that fails on a port: the result, the port and the class that the reply names. -/
def State.commitRefusal (s : State) (p : PortNo) : Option (ReplyResult × PortNo × Option ClassNo) :=
  let P := s.port p
  if P.commitStatus = .pending then some (.busy, p, none)
  else if 1024 < P.stagedFloorSum then some (.overcommit, p, none)
  else P.lockBreaker.map (fun c => (.locked, p, some c))

/-- The first failure over the named ports in ascending order (R11). -/
def State.commitFailure (s : State) (m : PortSet) : Option (ReplyResult × PortNo × Option ClassNo) :=
  (ascending.filter (names m)).findSome? s.commitRefusal

/-- An accepted COMMIT: each named port becomes PENDING, and a non-empty mask makes one commit group (R11, R12). -/
def State.acceptCommit (s : State) (m : PortSet) : State :=
  let s' := (ascending.filter (names m)).foldl
    (fun s p => s.mapPort p (fun P => { P with commitStatus := .pending })) s
  if m = 0 then s else { s' with groups := s'.groups ++ [m] }

/-- COMMIT: a reply sends FFh for a port or class it does not name (R171). -/
def serveCommit (m : PortSet) (s : State) : Served :=
  match s.commitFailure m with
  | some (r, p, c) => { st := s, result := r, body := [byte1 p.val, (c.map (fun x => byte1 x.val)).getD 0xFF] }
  | none => { st := s.acceptCommit m, result := .ok, body := [0xFF, 0xFF] }

/-- COMMIT (R11, R12). -/
def execCommit (ports : PortSet) (s : State) : Host.Outcome State Fault Refusal :=
  event (State.serveRequest (.commit ports) (serveCommit ports)) s

/-- The port leaves its commit group; a group that holds no port ends (R12, R18, R19). -/
def leaveGroup (gs : List PortSet) (p : PortNo) : List PortSet :=
  (gs.map (fun g => g &&& ~~~portMask p)).filter (fun g => g != 0)

/-- The port is the last of its commit group. -/
def lastOfGroup (gs : List PortSet) (p : PortNo) : Bool := gs.any (fun g => g == portMask p)

/-- A pending commit of the port is aborted (R19). -/
def State.abortPort (s : State) (p : PortNo) : State :=
  if (s.port p).commitStatus = .pending then
    { s.mapPort p (fun P => { P with commitStatus := .aborted }) with groups := leaveGroup s.groups p }
  else s

/-- The named ports with a commit status, as a mask (R19). -/
def State.portsWithStatus (s : State) (m : PortSet) (st : CommitStatus) : PortSet :=
  (ascending.filter (fun p => names m p && (s.port p).commitStatus == st)).foldl (fun acc p => acc ||| portMask p) 0

/-- ABORT-COMMIT: the aborted set and the applied set (R19). -/
def serveAbortCommit (m : PortSet) (s : State) : Served :=
  { st := (ascending.filter (names m)).foldl State.abortPort s, result := .ok,
    body := Wire.bytes2 (s.portsWithStatus m .pending) ++ Wire.bytes2 (s.portsWithStatus m .applied) }

/-- ABORT_COMMIT (R19). -/
def execAbortCommit (ports : PortSet) (s : State) : Host.Outcome State Fault Refusal :=
  event (State.serveRequest (.abortCommit ports) (serveAbortCommit ports)) s

/-! ## LOCK -/

/-- The reply of a LOCK that names a cell: the cell as it stands after the request (R21). -/
def lockReply (pb cb : Byte) (p : PortNo) (c : ClassNo) (r : ReplyResult) (s : State) : Served :=
  { st := s, result := r, body := pb :: cb :: ((s.port p).lockCell c).bytes }

/-- LOCK in the order of R21. -/
def serveLock (pb cb : Byte) (s : State) : Served :=
  match index16 pb, index16 cb with
  | some p, some c =>
    let x := ((s.port p).row c).contract
    if (s.port p).commitStatus = .pending then lockReply pb cb p c .busy s
    else if !x.valid || !x.isProtected then lockReply pb cb p c .notAllowed s
    else lockReply pb cb p c .ok (s.mapPort p (fun P => P.setLock c { locked := true, floor := x.floorShare }))
  | _, _ => { st := s, result := .notAllowed, body := zeros 5 }

/-- LOCK (R20, R21). -/
def execLock (port cls : Byte) (s : State) : Host.Outcome State Fault Refusal :=
  event (State.serveRequest (.lock port cls) (serveLock port cls)) s

/-! ## Applying a pending commit -/

/-- A row with the contract, its accounts, remainders and shares at 0 and its queue empty (R15, R17). -/
def Row.fresh (x : Contract) : Row :=
  { contract := x, fb := 0, cb := 0, rf := 0, rc := 0, e := 0, ce := 0, queue := [] }

/-- The row takes the contract, its accounts clamped down to the new bursts (R16). -/
def Row.update (x : Contract) (r : Row) : Row :=
  { r with contract := x, fb := min r.fb (burstBytes x.floorBurst), cb := min r.cb (burstBytes x.ceilingBurst) }

/-- The award-list records of the class lose their refundable marks, and an open run of the class closes (R17 steps 2
and 3). -/
def Port.forgetClass (P : Port) (c : ClassNo) : Port :=
  { P with
    awards := P.awards.map (fun a => if a.bid.cls = c then { a with refundable := false } else a)
    run := P.run.filter (fun x => x.cls != c) }

/-- One class at the application of a commit (R15, R16, R17). An invalid row holds no records, so the queue that R15
finds is empty. -/
def State.applyClass (p : PortNo) (s : State) (c : ClassNo) : State :=
  let P := s.port p
  let r := P.row c
  let x := P.stagedRow c
  if !r.contract.valid then s.setPort p (P.setRow c { Row.fresh x with queue := r.queue })
  else if x.valid then s.setPort p (P.setRow c (r.update x))
  else (s.setPort p ((P.setRow c (.fresh x)).forgetClass c)).declineRecords p .allotmentWithdrawn r.queue

/-- The grade of a recomputation at a commit: the current grade if it is above DOWN, else the reference grade (R18). -/
def Port.shareGrade (P : Port) : Grade := if P.grade = .down then P.referenceGrade else P.grade

/-- The steps that complete an application: shares, status, commit group and COMMIT notice (R18). -/
def State.completeCommit (s : State) (p : PortNo) : State :=
  let s' := { s.mapPort p (fun P => { P.recomputeShares P.shareGrade with commitStatus := .applied }) with
              groups := leaveGroup s.groups p }
  if lastOfGroup s.groups p then s'.noticeCause .commit else s'

/-- A pending commit of the port is applied, class by class in ascending order (R14). -/
def State.applyCommit (s : State) (p : PortNo) : State :=
  if (s.port p).commitStatus = .pending then (ascending.foldl (State.applyClass p) s).completeCommit p else s

/-! ## The accrual timer -/

/-- The timer reloads: the loaded period becomes the stored interval times the stored prescale (R26 step 3). -/
def Port.reload (P : Port) : Port :=
  { P with loadedPeriod := P.settings.period, accrualTimer := P.settings.period }

/-- An expiry of the accrual timer: the commit, the accrual, the reload and the selection opportunity (R26). -/
def State.accrualExpiry (s : State) (p : PortNo) : State :=
  ((s.applyCommit p).mapPort p (fun P => P.accrue.reload)).ladder p

/-- ACCRUAL_TIMER_EXPIRY: the time left of the period passes, and the timer expires (R26). -/
def execAccrualTimerExpiry (port : PortNo) (s : State) : Host.Outcome State Fault Refusal :=
  event (fun s => (s.elapse (s.port port).accrualTimer).accrualExpiry port) s

end Sys2Proof.Machine
end

