-- ==== Sys2Proof/Machine/FaultsCounters.lean ====
section
/-! DEFINITION. The requests on the fault record and on the port counters (Chapter 9): FAULT-READ, FAULT-CLEAR,
FAULT-MODE, COUNTER-SELECT and COUNTER-READ. What a reported fault and a counter event do stands in Machine/Ops.lean. -/

namespace Sys2Proof.Machine

/-- FAULT-READ (R154, R172). -/
def serveFaultRead (s : State) : Served := { st := s, result := .ok, body := s.faults.bytes }

/-- FAULT_READ (R154). -/
def execFaultRead (s : State) : Host.Outcome State Fault Refusal :=
  event (State.serveRequest .faultRead serveFaultRead) s

/-- The record EMPTY, both summary flags clear and the kinds-seen set empty; ignore-minor is kept (R150, R155). -/
def FaultUnit.emptied (u : FaultUnit) : FaultUnit :=
  { held := none, moreMinor := false, moreMajor := false, kindsSeen := 0, ignoreMinor := u.ignoreMinor }

/-- FAULT-CLEAR: the record as it stands, and then emptied (R155). -/
def serveFaultClear (s : State) : Served :=
  { st := { s with faults := s.faults.emptied }, result := .ok, body := s.faults.bytes }

/-- FAULT_CLEAR (R155). -/
def execFaultClear (s : State) : Host.Outcome State Fault Refusal :=
  event (State.serveRequest .faultClear serveFaultClear) s

/-- FAULT-MODE: the ignore-minor setting is stored (R153). A refused one carries a body of zeros (entry 16). -/
def serveFaultMode (v : Byte) (s : State) : Served :=
  match flagOf v with
  | none => { st := s, result := .inconsistent, body := zeros 2 }
  | some b =>
    { st := { s with faults := { s.faults with ignoreMinor := b } }, result := .ok
      body := [flag b, flag s.faults.held.isSome] }

/-- FAULT_MODE (R153). -/
def execFaultMode (value : Byte) (s : State) : Host.Outcome State Fault Refusal :=
  event (State.serveRequest (.faultMode value) (serveFaultMode value)) s

/-- The selections are stored, and the counters are cleared according to what changed (R158 step 3). -/
def CounterPair.select (x : CounterPair) (ev : CounterEvent) (c : ClassNo) : CounterPair :=
  { event := ev, cls := c
    a := if ev = x.event then x.a else 0
    b := if ev = x.event ∧ c = x.cls then x.b else 0 }

/-- COUNTER-SELECT in the order of R158. -/
def serveCounterSelect (pb eb cb : Byte) (s : State) : Served :=
  match index16 pb, index16 cb with
  | some p, some c =>
    match counterEventOf eb with
    | none => { st := s, result := .inconsistent, body := zeros 11 }
    | some ev =>
      let x := (s.port p).counters.select ev c
      { st := s.mapPort p (fun P => { P with counters := x }), result := .ok, body := pb :: x.bytes }
  | _, _ => { st := s, result := .notAllowed, body := zeros 11 }

/-- COUNTER_SELECT (R158). -/
def execCounterSelect (port ev cls : Byte) (s : State) : Host.Outcome State Fault Refusal :=
  event (State.serveRequest (.counterSelect port ev cls) (serveCounterSelect port ev cls)) s

/-- Both counters at 0, the selections kept (R159). -/
def CounterPair.cleared (x : CounterPair) : CounterPair := { x with a := 0, b := 0 }

/-- COUNTER-READ: the selections and counts, then cleared if the request says so (R159). DESIGN CHOICE (entry 29): R159
gives no order between its two refusals; a port above 15 is examined before an undefined clear-on-read value, so a request
with both is NOT_ALLOWED. -/
def serveCounterRead (pb rb : Byte) (s : State) : Served :=
  match index16 pb, flagOf rb with
  | none, _ => { st := s, result := .notAllowed, body := zeros 11 }
  | some _, none => { st := s, result := .inconsistent, body := zeros 11 }
  | some p, some clear =>
    { st := if clear then s.mapPort p (fun P => { P with counters := P.counters.cleared }) else s, result := .ok
      body := pb :: (s.port p).counters.bytes }

/-- COUNTER_READ (R159). -/
def execCounterRead (port clear : Byte) (s : State) : Host.Outcome State Fault Refusal :=
  event (State.serveRequest (.counterRead port clear) (serveCounterRead port clear)) s

end Sys2Proof.Machine
end

