-- ==== Sys2Proof/Machine/Management.lean ====
section
/-! DEFINITION. The management link unit and the resets (Chapter 8): characters and frames of the host, the requests
IDENTIFY, LINE-RATE, STATUS, NOTICE-ENABLE, NOTICE-ACK and RESET, the end of a frame's transmission, the warm reset and
the cold reset. -/

namespace Sys2Proof.Machine

open Sys2Proof.Wire (Verdict bytes2 bytes4)

/-! ## The line (R135, R136) -/

/-- MG_CHARACTER_RECEIVED (R135). -/
def execMgCharacterReceived (c : Byte) (s : State) : Host.Outcome State Fault Refusal :=
  event (fun s => s.receiveCharacter c) s

/-- REQUEST_FRAME_COMPLETE: the frame in assembly with these characters, or one whose characters arrive now, is complete
and joins the inbound buffer, or is dropped (R135, R136, entry 6). -/
def execRequestFrameComplete (chars : List Byte) (s : State) : Host.Outcome State Fault Refusal :=
  event (fun s =>
    (if s.assembled chars then s else s.receiveCharacters (Wire.startMarker :: chars)).completeAssembly) s

/-- FRAME_ABANDONED: the time left of the gap passes, and the incomplete frame in assembly is complete as an abandoned
one (R135). Without an incomplete frame in assembly nothing happens. -/
def execFrameAbandoned (s : State) : Host.Outcome State Fault Refusal :=
  event (fun s =>
    match s.mg.assembly with
    | some a =>
      if Wire.isComplete a.chars then s
      else
        let s := s.elapse a.gap
        { s with mg := { s.mg with assembly := none } }.joinInbound { chars := a.chars, abandoned := true }
    | none => s) s

/-- BAD_FRAME_REQUEST: the served frame is answered BAD_FRAME with an empty body (R137, R138). DESIGN CHOICE (entry 5): an
oldest frame that is bad is the command's, whatever frame the command names, and that frame then does not arrive. -/
def execBadFrameRequest (frame : RequestFrame) (s : State) : Host.Outcome State Fault Refusal :=
  event (State.serve (fun v => v == .badFrame) frame
    (fun s => { st := s, result := .badFrame, body := [] })) s

/-- UNKNOWN_KIND_REQUEST: the served frame is answered UNKNOWN_KIND with an empty body (R137, R138). DESIGN CHOICE (entry
5): an oldest frame of an unknown kind is the command's, whatever characters the command names, and those then do not
arrive. -/
def execUnknownKindRequest (chars : List Byte) (s : State) : Host.Outcome State Fault Refusal :=
  event (State.serve (fun v => v == .unknownKind) { chars := chars, abandoned := false }
    (fun s => { st := s, result := .unknownKind, body := [] })) s

/-! ## Requests on the unit -/

/-- IDENTIFY (R140, Table 8.5): family code 3Ch, part code A6h, revision, ports, classes per port, source entries, bid
records, rehearsal log entries, largest award window. -/
def serveIdentify (s : State) : Served :=
  { st := s, result := .ok
    body := [0x3C, 0xA6, byte1 (Config.revisionLessOne.val + 1), 16, 16, 64] ++ nat2 2048 ++ [64, 8] }

/-- IDENTIFY (R140). -/
def execIdentify (s : State) : Host.Outcome State Fault Refusal :=
  event (State.serveRequest .identify serveIdentify) s

/-- LINE-RATE: the divider is stored; it takes effect at the end of the reply (R134). -/
def serveLineRate (d : BitVec 16) (s : State) : Served :=
  { st := { s with mg := { s.mg with divider := clampedDivider d } }
    result := if clampedDivider d = d then .ok else .clamped
    body := bytes2 (clampedDivider d), onSent := .takeDivider (clampedDivider d) }

/-- LINE_RATE (R134). -/
def execLineRate (divider : BitVec 16) (s : State) : Host.Outcome State Fault Refusal :=
  event (State.serveRequest (.lineRate divider) (serveLineRate divider)) s

/-- STATUS (R141). -/
def serveStatus (s : State) : Served :=
  { st := s, result := .ok
    body := s.mg.notices.bytes ++ [noticeByte s.mg.enables, flag s.attnLevel, s.sw.link.code, flag s.faults.held.isSome]
      ++ bytes4 s.timeBase }

/-- STATUS (R141). -/
def execStatus (s : State) : Host.Outcome State Fault Refusal :=
  event (State.serveRequest .status serveStatus) s

/-- NOTICE-ENABLE: the set replaces the enables; a newly enabled pending kind calls for a NOTICE behind the reply (R143,
R144). -/
def serveNoticeEnable (kinds : Byte) (s : State) : Served :=
  let en := noticeSetOf kinds
  { st := { s with mg := { s.mg with enables := en } }, result := .ok
    body := [noticeByte en, noticeByte s.mg.notices.pending]
    callsNotice := en &&& ~~~s.mg.enables &&& s.mg.notices.pending != 0 }

/-- NOTICE_ENABLE (R144). -/
def execNoticeEnable (kinds : Byte) (s : State) : Host.Outcome State Fault Refusal :=
  event (State.serveRequest (.noticeEnable kinds) (serveNoticeEnable kinds)) s

/-- The kinds leave the pending set; GRADE and STRAND take their port sets with them (R145). -/
def NoticeRecord.acknowledge (n : NoticeRecord) (k : NoticeSet) : NoticeRecord :=
  { pending := n.pending &&& ~~~k
    gradePorts := if k &&& NoticeKind.grade.mask != 0 then 0 else n.gradePorts
    strandPorts := if k &&& NoticeKind.strand.mask != 0 then 0 else n.strandPorts }

/-- NOTICE-ACK (R145). -/
def serveNoticeAck (kinds : Byte) (s : State) : Served :=
  let n := s.mg.notices.acknowledge (noticeSetOf kinds)
  { st := { s with mg := { s.mg with notices := n } }, result := .ok, body := n.bytes }

/-- NOTICE_ACK (R145). -/
def execNoticeAck (kinds : Byte) (s : State) : Host.Outcome State Fault Refusal :=
  event (State.serveRequest (.noticeAck kinds) (serveNoticeAck kinds)) s

/-- RESET: the reply is queued, and no further request is served until the warm reset has taken effect (R147). -/
def serveReset (s : State) : Served :=
  { st := { s with mg := { s.mg with resetStage := .awaiting } }, result := .ok, body := [], onSent := .warmReset }

/-- RESET (R147). -/
def execReset (s : State) : Host.Outcome State Fault Refusal :=
  event (State.serveRequest .reset serveReset) s

/-! ## Sending -/

/-- What the end of a reply brings about: the divider takes effect (R134); the warm reset is due (R147). DESIGN CHOICE
(entry 26): with two LINE-RATE requests in flight R134 does not say which divider the end of the first reply puts in
force; here it is the one that the ended reply carries, not the one stored by then. -/
def State.replySent (s : State) : OnSent → State
  | .nothing => s
  | .takeDivider d => { s with mg := { s.mg with lineDivider := d } }
  | .warmReset => { s with mg := { s.mg with resetStage := .replySent } }

/-- The frame in transmission has been sent: it leaves the queue, and its place is free (R139). -/
def State.frameSent (s : State) : State :=
  if s.mg.sending then
    match s.mg.outq with
    | [] => s
    | f :: rest =>
      let s := { s with mg := { s.mg with outq := rest, sending := false } }
      match f with
      | .reply r => s.replySent r.onSent
      | .notice _ => s
  else s

/-- MG_FRAME_SENT: the frame in transmission has been sent, and the next begins (R139, R143); after a RESET reply none
begins before the warm reset (R147). -/
def execMgFrameSent (s : State) : Host.Outcome State Fault Refusal := event State.frameSent s

/-! ## The warm reset -/

/-- The warm reset of a port: the staged set takes the active contracts; accounts, remainders, queues, award list, run,
commit status and counts are dropped, the pointers become 15; all else is kept (R3, R48, R61, R100, R156). -/
def Port.warm (P : Port) : Port :=
  { P with
    active := P.active.map (fun r => { r with fb := 0, cb := 0, rf := 0, rc := 0, queue := [] })
    staged := P.active.map Row.contract
    commitStatus := .none, awards := [], pointers := .allLast, run := none
    counters := { P.counters with a := 0, b := 0 } }

/-- The outbound queue of the switch link after a warm reset: the frame in transmission, the waiting SYNC frames, and the
FORGOTTEN of the warm reset (R131). -/
def SwitchUnit.purged (u : SwitchUnit) : SwitchUnit :=
  let n := if u.sending then 1 else 0
  { u with outq := u.outq.take n ++ (u.outq.drop n).filter (fun f => f == .sync) ++ [.forgotten] }

/-- The management link unit after a warm reset: waiting NOTICE frames leave unsent, the notice state is empty, and
serving resumes (R147). -/
def MgUnit.warm (u : MgUnit) : MgUnit :=
  { u with outq := u.outq.filter (fun f => f != .notice none), notices := .empty, resetStage := .idle }

/-- The source entry after a warm reset: its outstanding count is 0 (R39, R48). -/
def SourceEntry.warm (x : SourceEntry) : SourceEntry := { x with outstanding := 0 }

/-- Every block's warm values: all bid state is dropped, and FORGOTTEN is handed to the switch link unit (R3, R48, R131,
R147, R150, R160). -/
def State.warmValues (s : State) : State :=
  { s with
    ports := s.ports.map Port.warm
    groups := []
    sources := s.sources.map SourceEntry.warm
    pool := { s.pool with free := 2048, pause := false }
    sw := s.sw.purged
    mg := s.mg.warm
    faults := s.faults.emptied
    log := .empty }

/-- The warm reset; the opportunities of R163 follow where the log was full. -/
def State.warmReset (s : State) : State := s.warmValues.afterFreeing s.log.full

/-- The frames up to and including the RESET reply are sent, one after another; `n` bounds their number. -/
def State.sendUntilReset : Nat → State → State
  | 0, s => s
  | n + 1, s =>
    if s.mg.resetStage = .awaiting then State.sendUntilReset n s.beginManagement.frameSent else s

/-- WARM_RESET: at the end of the RESET reply the warm reset takes effect. A reply that is still queued is sent first,
with the frames before it (R147, entry 10). Without a served RESET there is no warm reset, and nothing happens. -/
def execWarmReset (s : State) : Host.Outcome State Fault Refusal :=
  event (fun s =>
    let s := State.sendUntilReset s.mg.outq.length s
    if s.mg.resetStage = .replySent then s.warmReset else s) s

/-! ## The cold reset -/

/-- COLD_RESET_ASSERT: RST_N goes low. The outputs take their levels, work in hand and frames in transmission end where
they stand, and the switch link unit and the frame in assembly are discarded (R130, R135, R148). The part then takes no
event until the release. -/
def execColdResetAssert (s : State) : Host.Outcome State Fault Refusal :=
  .next ({ s with
    pins := { s.pins with rstN := false }
    sw := .cold
    mg := { s.mg with assembly := none, inbound := [], outq := [], sending := false, resetStage := .idle } }.drivePins)

/-- COLD_RESET_RELEASE: every block takes its cold values, and the time base starts from 0 (R148). -/
def execColdResetRelease (s : State) : Host.Outcome State Fault Refusal :=
  .next { State.reset with pending := s.pending }

end Sys2Proof.Machine
end

