-- ==== Sys2Proof/Machine/Finish.lean ====
section
/-! DEFINITION. The end of awarded records (Chapter 5): FINISH and its refund, stray finishes, DEADLINE_EXPIRY and its
lapse, and FORGET. The frames FINISH and FORGET are taken in Machine/SwitchLink.lean; TEST-FINISH in
Machine/Rehearsal.lean. -/

namespace Sys2Proof.Machine

/-! ## FINISH -/

/-- A fault that names a record: its port, class, source entry and tag (R87, R90). -/
def State.recordFault (s : State) (k : FaultKind) (p : PortNo) (b : BidRecord) : FaultReport :=
  { kind := k, time := s.timeBase, port := some p, cls := some b.cls, source := some b.source, tag := some b.tag,
    address := none }

/-- The refund of a finish: length less moved if the record is refundable, where bytes moved above the length count as
the length (R86, R87). 0 stands for no refund. -/
def AwardRecord.refundDue (a : AwardRecord) (moved : Nat) : Nat :=
  if a.refundable then a.bid.length - min moved a.bid.length else 0

/-- The reserved log place of a record on a port in REHEARSAL becomes free (R164). -/
def State.freeReserved (s : State) (p : PortNo) : State :=
  if (s.port p).mode = .rehearsal then s.setReserved (s.log.reserved - 1) else s

/-- A finish of an award-list record, up to its selection opportunity: the overlength fault, the removal from the list,
the refund, and the return to the pool (R86 steps 1 to 4, R87, R36). -/
def State.finishRecord (s : State) (p : PortNo) (a : AwardRecord) (moved : Nat) : State :=
  let s := if a.bid.length < moved then s.reportFault (s.recordFault .overlengthFinish p a.bid) else s
  let due := a.refundDue moved
  let s := s.mapPort p (fun P =>
    let P := P.removeAward a.bid.tag
    if 0 < due then P.mapRow a.bid.cls (Row.refund a.charge due) else P)
  (s.freeReserved p).returnRecord a.bid

/-- A stray finish: the MINOR fault, with the class and source entry of the queued record if the tag's record is queued
(R88). -/
def State.strayFinish (s : State) (p : PortNo) (tag : Tag) (queued : Option BidRecord) : State :=
  s.reportFault { kind := .strayFinish, time := s.timeBase, port := some p, cls := queued.map (fun b => b.cls),
                  source := queued.map (fun b => b.source), tag := some tag, address := none }

/-- A FINISH frame handed to the scheduler of its port: a port in REHEARSAL makes it stray without a search (R85). DESIGN
CHOICE (entry 27): the fault of such a FINISH carries no class and no source entry, even where the tag's record is queued
on that port. -/
def State.takeFinish (f : FinishBody) (s : State) : State :=
  let P := s.port f.port
  if P.mode = .rehearsal then s.strayFinish f.port f.tag none
  else match P.award? f.tag with
    | some a => (s.finishRecord f.port a f.moved.toNat).ladder f.port
    | none => s.strayFinish f.port f.tag (P.queuedRecord f.tag)

/-! ## Lapses -/

/-- How a lapse is told: by LAPSE, or on a port in REHEARSAL by an entry in the record's reserved log place (R90 step 4,
R165). -/
def State.tellLapse (s : State) (p : PortNo) (a : AwardRecord) : State :=
  if (s.port p).mode = .rehearsal then
    (s.writeLog (logEntry .lapse p a.bid a.charge s.timeBase)).setReserved (s.log.reserved - 1)
  else s.pushSwitch (.lapse p a.bid.tag)

/-- The lapse of a record: removal without refund, return to the pool, the LAPSE or log entry, the MAJOR fault, the
counter event and the selection opportunity (R90). -/
def State.lapseRecord (s : State) (p : PortNo) (a : AwardRecord) : State :=
  let s := ((s.mapPort p (fun P => P.removeAward a.bid.tag)).returnRecord a.bid).tellLapse p a
  let s := s.reportFault (s.recordFault .finishLapse p a.bid)
  (s.count p .lapses (some a.bid.cls) 1).ladder p

/-- DEADLINE_EXPIRY of the award-list record with the tag: the time left to its deadline passes, and it lapses (R84,
R90). Without such a record no deadline timer runs, and nothing happens. -/
def execDeadlineExpiry (port : PortNo) (tag : Tag) (s : State) : Host.Outcome State Fault Refusal :=
  event (fun s =>
    match (s.port port).award? tag with
    | some a => (s.elapse a.timer).lapseRecord port a
    | none => s) s

/-! ## FORGET -/

/-- A FORGET frame taken: every record of every port not in REHEARSAL is dropped, in ascending port order, and FORGOTTEN
is handed to the switch link unit (R94 to R96). -/
def State.takeForget (s : State) : State :=
  (ascending.foldl (fun s p => if (s.port p).mode = .rehearsal then s else s.dropRecords p) s).pushSwitch .forgotten

end Sys2Proof.Machine
end

