-- ==== Sys2Proof/Machine/Intake.lean ====
section
/-! DEFINITION. Bid intake, the source map and the bid pool (Chapter 3): the lookup, the checks of a bid, acceptance and
decline, WITHDRAW, and the requests PORT-FLUSH, SOURCE-SET, SOURCE-READ, QUEUE-READ, POOL-SET and POOL-READ. The frames
BID and WITHDRAW stand in Machine/SwitchLink.lean, which takes them. -/

namespace Sys2Proof.Machine

/-! ## The source map -/

/-- The source entries by number, in ascending order. -/
def entryNumbers : List EntryNo := List.finRange 64

/-- A valid entry matches when every address bit whose mask bit is 0 equals the bit of the match base (R40). -/
def SourceEntry.covers (x : SourceEntry) (a : Address) : Bool :=
  x.valid && ((a ^^^ x.matchBase) &&& ~~~x.matchMask) == 0

/-- The first valid entry that matches, in ascending entry order (R40). -/
def State.lookup (s : State) (a : Address) : Option EntryNo := entryNumbers.find? (fun e => (s.source e).covers a)

/-- A SOURCE-SET would change the entry's identity (R41 step 4). -/
def SourceEntry.identityChanges (x : SourceEntry) (valid : Bool) (b : SourceBody) (cls : ClassNo) : Bool :=
  b.matchBase != x.matchBase || b.matchMask != x.matchMask || cls != x.cls || (x.valid && !valid)

/-- The reply of a SOURCE-SET that names an entry: the entry as it stands after the request (R41). -/
def sourceReply (eb : Byte) (e : EntryNo) (r : ReplyResult) (s : State) : Served :=
  { st := s, result := r, body := eb :: (s.source e).bytes }

/-- SOURCE-SET in the order of R41, for an entry of 0..63; all six host-written fields are replaced at once (R42). -/
def sourceSet (eb : Byte) (e : EntryNo) (b : SourceBody) (s : State) : Served :=
  match index16 b.cls, flagOf b.valid, admissionOf b.admission with
  | none, _, _ => sourceReply eb e .notAllowed s
  | some c, some v, some ad =>
    let x := s.source e
    let limit := clamp 1 255 b.limit.toNat
    if 0 < x.outstanding && x.identityChanges v b c then sourceReply eb e .busy s
    else sourceReply eb e (if limit ≠ b.limit.toNat then .clamped else .ok)
      (s.setSource e { valid := v, matchBase := b.matchBase, matchMask := b.matchMask, cls := c, limit := limit,
                       admission := ad, outstanding := x.outstanding })
  | some _, _, _ => sourceReply eb e .inconsistent s

/-- SOURCE-SET: an entry number above 63 is refused first (R41 step 1). -/
def serveSourceSet (eb : Byte) (b : SourceBody) (s : State) : Served :=
  match index64 eb with
  | some e => sourceSet eb e b s
  | none => { st := s, result := .notAllowed, body := zeros 12 }

/-- SOURCE_SET (R41, R42). -/
def execSourceSet (entry : Byte) (body : SourceBody) (s : State) : Host.Outcome State Fault Refusal :=
  event (State.serveRequest (.sourceSet entry body) (serveSourceSet entry body)) s

/-- SOURCE-READ (R43). -/
def serveSourceRead (eb : Byte) (s : State) : Served :=
  match index64 eb with
  | some e => { st := s, result := .ok, body := eb :: (s.source e).bytes }
  | none => { st := s, result := .notAllowed, body := zeros 12 }

/-- SOURCE_READ (R43). -/
def execSourceRead (entry : Byte) (s : State) : Host.Outcome State Fault Refusal :=
  event (State.serveRequest (.sourceRead entry) (serveSourceRead entry)) s

/-! ## The checks of a bid -/

/-- The outcome of the checks: a decline with its cause and the source entry if check 3 found one, or acceptance through
an entry (R51, R52). -/
inductive IntakeVerdict where
  | decline (cause : Cause) (source : Option EntryNo)
  | accept (source : EntryNo)
  deriving DecidableEq, Repr

/-- Checks 4 to 9 of Table 3.4, once the lookup has found an entry (R51). -/
def State.checkWithEntry (s : State) (b : BidBody) (e : EntryNo) : IntakeVerdict :=
  let x := s.source e
  let P := s.port b.port
  let r := P.row x.cls
  if x.admission = .muted then .decline .sourceMuted (some e)
  else if !r.contract.valid then .decline .noAllotment (some e)
  else if P.tagInUse b.tag then .decline .duplicateTag (some e)
  else if x.limit ≤ x.outstanding then .decline .sourceLimit (some e)
  else if r.contract.queueLimit ≤ r.queue.length then .decline .queueFull (some e)
  else if s.pool.free = 0 then .decline .poolFull (some e)
  else .accept e

/-- Checks 2 to 9 of Table 3.4, which a TEST-BID also passes through (R51, R161). -/
def State.checkFrom2 (s : State) (b : BidBody) : IntakeVerdict :=
  if (s.port b.port).stranded then .decline .portDown none
  else match s.lookup b.address with
    | none => .decline .unknownSource none
    | some e => s.checkWithEntry b e

/-- Checks 1 to 9 of Table 3.4 on a BID frame (R51). -/
def State.checkBid (s : State) (b : BidBody) : IntakeVerdict :=
  match (s.port b.port).mode with
  | .off => .decline .portOff none
  | .rehearsal => .decline .portRehearsal none
  | _ => s.checkFrom2 b

/-- The class that the counter events of a bid carry: the entry's class when check 3 has found one (R52). -/
def State.bidClass (s : State) (e : Option EntryNo) : Option ClassNo := e.map (fun e => (s.source e).cls)

/-- The fault reported with a decline, if Table 3.4 names one, with the fields of Table 3.5 (R52). -/
def State.declineFault (s : State) (b : BidBody) (cause : Cause) (e : Option EntryNo) : Option FaultReport :=
  let f (k : FaultKind) : FaultReport :=
    { kind := k, time := s.timeBase, port := some b.port, cls := s.bidClass e, source := e, tag := some b.tag,
      address := some b.address }
  match cause with
  | .unknownSource => some (f .unknownSource)
  | .duplicateTag => some (f .duplicateTag)
  | .poolFull => some (f .poolExhausted)
  | _ => none

/-- A bid that fails a check: its fault, and its ARRIVALS and DECLINES counter events (R52). -/
def State.declineBid (s : State) (b : BidBody) (cause : Cause) (e : Option EntryNo) : State :=
  let s' := match s.declineFault b cause e with
    | some f => s.reportFault f
    | none => s
  (s'.count b.port .arrivals (s.bidClass e) 1).count b.port .declines (s.bidClass e) 1

/-- The record of an accepted bid (Table 3.2, R53). -/
def State.bidRecord (s : State) (b : BidBody) (e : EntryNo) : BidRecord :=
  { tag := b.tag, source := e, cls := (s.source e).cls, length := b.length, key := b.key, acceptTime := s.timeBase }

/-- An accepted bid: a record leaves the pool and joins the tail of its row queue, the source's outstanding count rises,
PAUSE is re-evaluated, and the ARRIVALS event is counted (R52, R53). Its tag joins the tag set with it. -/
def State.acceptBid (s : State) (b : BidBody) (e : EntryNo) : State :=
  let x := s.source e
  let s' := s.mapPort b.port (fun P =>
    (P.mapRow x.cls (fun r => { r with queue := r.queue ++ [s.bidRecord b e] })).count .arrivals (some x.cls) 1)
  ((s'.setSource e { x with outstanding := x.outstanding + 1 }).setFree (s.pool.free - 1)).evaluatePause

/-- A BID frame taken for its port (R51 to R53). -/
def State.takeBid (b : BidBody) (s : State) : State :=
  match s.checkBid b with
  | .decline cause e => (s.declineBid b cause e).pushSwitch (.decline b.port b.tag cause)
  | .accept e => (s.acceptBid b e).ladder b.port

/-! ## WITHDRAW -/

/-- The queued record with the tag leaves its queue; the records before and after it keep their order (R58). -/
def Port.removeQueued (P : Port) (c : ClassNo) (tag : Tag) : Port :=
  P.mapRow c (fun r => { r with queue := r.queue.eraseP (fun b => b.tag == tag) })

/-- A WITHDRAW frame taken for its port: REMOVED, LATE or UNKNOWN (R58). -/
def State.takeWithdraw (p : PortNo) (tag : Tag) (s : State) : State :=
  let P := s.port p
  if P.mode = .rehearsal then s.pushSwitch (.withdrawAnswer p tag .unknown)
  else match P.queuedClass tag with
    | some c =>
      match (P.row c).queue.find? (fun b => b.tag == tag) with
      | some b =>
        ((s.setPort p (P.removeQueued c tag)).returnRecord b).pushSwitch (.withdrawAnswer p tag .removed)
      | none => s
    | none =>
      match P.award? tag with
      | some _ => s.pushSwitch (.withdrawAnswer p tag .late)
      | none => s.pushSwitch (.withdrawAnswer p tag .unknown)

/-! ## PORT-FLUSH and QUEUE-READ -/

/-- PORT-FLUSH: the reply carries the number of records declined (R60). -/
def servePortFlush (pb : Byte) (s : State) : Served :=
  match index16 pb with
  | some p => { st := s.declineQueues p .flushed, result := .ok, body := nat2 (s.port p).queued.length }
  | none => { st := s, result := .notAllowed, body := zeros 2 }

/-- PORT_FLUSH (R60). -/
def execPortFlush (port : Byte) (s : State) : Host.Outcome State Fault Refusal :=
  event (State.serveRequest (.portFlush port) (servePortFlush port)) s

/-- QUEUE-READ: the queue count and up to 32 records from the head (R50). -/
def serveQueueRead (pb cb : Byte) (s : State) : Served :=
  match index16 pb, index16 cb with
  | some p, some c =>
    let q := ((s.port p).row c).queue
    { st := s, result := .ok
      body := [pb, cb, byte1 q.length, byte1 (q.take 32).length] ++ (q.take 32).flatMap BidRecord.bytes }
  | _, _ => { st := s, result := .notAllowed, body := zeros 4 }

/-- QUEUE_READ (R50). -/
def execQueueRead (port cls : Byte) (s : State) : Host.Outcome State Fault Refusal :=
  event (State.serveRequest (.queueRead port cls) (serveQueueRead port cls)) s

/-! ## POOL-SET and POOL-READ -/

/-- POOL-SET: the marks are clamped and stored, and PAUSE is re-evaluated at once (R56). -/
def servePoolSet (lo hi : BitVec 16) (s : State) : Served :=
  let m := clampedMarks lo.toNat hi.toNat
  let s' := { s with pool := { s.pool with lowMark := m.1, highMark := m.2 } }.evaluatePause
  { st := s', result := if m = (lo.toNat, hi.toNat) then .ok else .clamped
    body := nat2 s'.pool.lowMark ++ nat2 s'.pool.highMark ++ nat2 s'.pool.free ++ [flag s'.pool.pause] }

/-- POOL_SET (R56). -/
def execPoolSet (lowMark highMark : BitVec 16) (s : State) : Host.Outcome State Fault Refusal :=
  event (State.serveRequest (.poolSet lowMark highMark) (servePoolSet lowMark highMark)) s

/-- POOL-READ: the free count, the queued and awarded records, the marks and the PAUSE state (R57). -/
def servePoolRead (s : State) : Served :=
  { st := s, result := .ok
    body := nat2 s.pool.free ++ nat2 s.queuedCount ++ nat2 s.awardedCount ++ nat2 s.pool.lowMark
      ++ nat2 s.pool.highMark ++ [flag s.pool.pause] }

/-- POOL_READ (R57). -/
def execPoolRead (s : State) : Host.Outcome State Fault Refusal :=
  event (State.serveRequest .poolRead servePoolRead) s

end Sys2Proof.Machine
end

