-- ==== Sys2Proof/Machine/Rehearsal.lean ====
section
/-! DEFINITION. The rehearsal unit's requests (Chapter 10): TEST-BID, TEST-FINISH and REHEARSAL-READ. Rehearsal awards and
lapses stand in Machine/Ladder.lean and Machine/Finish.lean. -/

namespace Sys2Proof.Machine

open Sys2Proof.Wire (bytes2 portNibble)

/-- The reply of a TEST-BID: port, tag and outcome (R161, R170). -/
def testBidReply (b : BidBody) (outcome : Byte) (s : State) : Served :=
  { st := s, result := .ok, body := portNibble b.port 0 :: (bytes2 b.tag ++ [outcome]) }

/-- TEST-BID: on a port in REHEARSAL the bid passes checks 2 to 9; the ladder of an accepted one runs before the reply
joins the queue (R161). -/
def serveTestBid (b : BidBody) (s : State) : Served :=
  if (s.port b.port).mode ≠ .rehearsal then { st := s, result := .notAllowed, body := zeros 4 }
  else match s.checkFrom2 b with
    | .decline cause e => testBidReply b cause.code (s.declineBid b cause e)
    | .accept e => testBidReply b 0 ((s.acceptBid b e).ladder b.port)

/-- TEST_BID (R161). -/
def execTestBid (body : BidBody) (s : State) : Host.Outcome State Fault Refusal :=
  event (State.serveRequest (.testBid body) (serveTestBid body)) s

/-- The reply of a TEST-FINISH: port, tag, outcome and refund (R164, R170). -/
def testFinishReply (f : FinishBody) (outcome : Byte) (refund : Nat) (s : State) : Served :=
  { st := s, result := .ok, body := portNibble f.port 0 :: (bytes2 f.tag ++ outcome :: nat3 refund) }

/-- The opportunities after a TEST-FINISH that ended a record: those of R163 where it left a full log not full, else the
port's own (R86 step 5, R163). -/
def State.afterTestFinish (s : State) (p : PortNo) (fullBefore : Bool) : State :=
  if fullBefore && !s.log.full then s.rehearsalOpportunities else s.ladder p

/-- TEST-FINISH: handled as a FINISH for a port outside REHEARSAL (R164). -/
def serveTestFinish (f : FinishBody) (s : State) : Served :=
  let P := s.port f.port
  if P.mode ≠ .rehearsal then { st := s, result := .notAllowed, body := zeros 7 }
  else match P.award? f.tag with
    | some a =>
      testFinishReply f 0 (a.refundDue f.moved.toNat)
        ((s.finishRecord f.port a f.moved.toNat).afterTestFinish f.port s.log.full)
    | none => testFinishReply f 1 0 (s.strayFinish f.port f.tag (P.queuedRecord f.tag))

/-- TEST_FINISH (R164). -/
def execTestFinish (body : FinishBody) (s : State) : Host.Outcome State Fault Refusal :=
  event (State.serveRequest (.testFinish body) (serveTestFinish body)) s

/-- The oldest 16 entries leave the log (R166). -/
def RehearsalLog.afterRead (l : RehearsalLog) : RehearsalLog := { l with entries := l.entries.drop 16 }

/-- REHEARSAL-READ: the entries given leave the log, the opportunities of R163 follow, and the reply carries the counts
as they then stand (R166). -/
def serveRehearsalRead (s : State) : Served :=
  let given := s.log.entries.take 16
  let s' := { s with log := s.log.afterRead }.afterFreeing s.log.full
  { st := s', result := .ok
    body := [byte1 given.length, byte1 s'.log.entries.length, byte1 s'.log.reserved, byte1 s'.log.freePlaces]
      ++ given.flatMap LogEntry.bytes }

/-- REHEARSAL_READ (R166). -/
def execRehearsalRead (s : State) : Host.Outcome State Fault Refusal :=
  event (State.serveRequest .rehearsalRead serveRehearsalRead) s

end Sys2Proof.Machine
end

