-- ==== Sys2Proof/Machine/PortCondition.lean ====
section
/-! DEFINITION. Port settings, port modes and link grade (Chapter 6, R22 to R25): PORT-SET, PORT-READ, PORT-MODE, the
effects of a GRADE frame, stranding, HOLD_DOWN_EXPIRY and RUN_TIMER_EXPIRY. The GRADE frame is taken in
Machine/SwitchLink.lean. -/

namespace Sys2Proof.Machine

/-! ## PORT-SET and PORT-READ -/

/-- The reply of a PORT-SET that names a port: its six stored settings (R22). -/
def settingsReply (pb : Byte) (p : PortNo) (r : ReplyResult) (s : State) : Served :=
  { st := s, result := r, body := pb :: (s.port p).settings.bytes }

/-- The settings are stored; a raised award window gives a selection opportunity (R22 step 4, R79). -/
def State.storeSettings (s : State) (p : PortNo) (x : PortSettings) : State :=
  let s' := s.mapPort p (fun P => { P with settings := x })
  if (s.port p).settings.window < x.window then s'.ladder p else s'

/-- PORT-SET in the order of R22. -/
def servePortSet (pb : Byte) (b : SettingsBody) (s : State) : Served :=
  match index16 pb with
  | none => { st := s, result := .notAllowed, body := zeros 10 }
  | some p =>
    match prescaleOf b.prescale with
    | none => settingsReply pb p .inconsistent s
    | some ps =>
      settingsReply pb p (if settingsClamped b then .clamped else .ok) (s.storeSettings p (clampedSettings b ps))

/-- PORT_SET (R22 to R24, R115 to R117). -/
def execPortSet (port : Byte) (body : SettingsBody) (s : State) : Host.Outcome State Fault Refusal :=
  event (State.serveRequest (.portSet port body) (servePortSet port body)) s

/-- PORT-READ (R25). -/
def servePortRead (pb : Byte) (s : State) : Served :=
  match index16 pb with
  | none => { st := s, result := .notAllowed, body := zeros 15 }
  | some p =>
    let P := s.port p
    { st := s, result := .ok
      body := pb :: P.settings.bytes ++ nat2 P.loadedPeriod ++ [P.mode.code, gradeByte P.grade, flag P.stranded] }

/-- PORT_READ (R25). -/
def execPortRead (port : Byte) (s : State) : Host.Outcome State Fault Refusal :=
  event (State.serveRequest (.portRead port) (servePortRead port)) s

/-! ## PORT-MODE -/

def State.setMode (s : State) (p : PortNo) (m : Mode) : State := s.mapPort p (fun P => { P with mode := m })

/-- The run record of the port becomes CLOSED (Table 4.4). -/
def State.closeRun (s : State) (p : PortNo) : State := s.mapPort p (fun P => { P with run := none })

/-- Leaving REHEARSAL: the records are dropped silently, the reserved places of the awarded ones become free, and then
the mode changes (R105, R165). -/
def State.leaveRehearsal (s : State) (p : PortNo) (m : Mode) : State :=
  let n := (s.port p).awards.length
  let s := s.dropRecords p
  (s.setReserved (s.log.reserved - n)).setMode p m

/-- The accepted mode change of Table 6.3, up to the opportunities that follow it (R103 to R106). -/
def State.changeMode (s : State) (p : PortNo) (m : Mode) : State :=
  match (s.port p).mode, m with
  | .rehearsal, .rehearsal => s
  | .rehearsal, m => s.leaveRehearsal p m
  | .live, .off => ((s.declineQueues p .portOff).closeRun p).setMode p .off
  | .frozen, .off => ((s.declineQueues p .portOff).closeRun p).setMode p .off
  | _, m => s.setMode p m

/-- The number of records that an accepted change removes: those declined by R103 or dropped by R105 (R102). -/
def Port.removedBy (P : Port) (m : Mode) : Nat :=
  match P.mode, m with
  | .rehearsal, .rehearsal => 0
  | .rehearsal, _ => P.queued.length + P.awards.length
  | .live, .off => P.queued.length
  | .frozen, .off => P.queued.length
  | _, _ => 0

/-- An accepted PORT-MODE: the change, the opportunity of a port set to LIVE (R104), and the opportunities of R163 where
leaving REHEARSAL has freed places of a full log (R165). -/
def State.acceptMode (s : State) (p : PortNo) (m : Mode) : State :=
  let s' := s.changeMode p m
  (if m = .live then s'.ladder p else s').afterFreeing s.log.full

/-- The mode REHEARSAL is refused BUSY: to a port in another mode than OFF or REHEARSAL, or to an OFF port with records
on its award list (R102 steps 3 and 4). -/
def Port.refusesRehearsal (P : Port) : Bool :=
  match P.mode with
  | .rehearsal => false
  | .off => !P.awards.isEmpty
  | _ => true

/-- The reply of a PORT-MODE that names a port: its mode after the request and the records removed (R102). -/
def modeReply (pb : Byte) (p : PortNo) (r : ReplyResult) (removed : Nat) (s : State) : Served :=
  { st := s, result := r, body := [pb, (s.port p).mode.code] ++ nat2 removed }

/-- PORT-MODE in the order of R102. -/
def servePortMode (pb mb : Byte) (s : State) : Served :=
  match index16 pb with
  | none => { st := s, result := .notAllowed, body := zeros 4 }
  | some p =>
    match modeOf mb with
    | none => modeReply pb p .inconsistent 0 s
    | some m =>
      if m = .rehearsal ∧ (s.port p).refusesRehearsal then modeReply pb p .busy 0 s
      else modeReply pb p .ok ((s.port p).removedBy m) (s.acceptMode p m)

/-- PORT_MODE (R102 to R106). -/
def execPortMode (port mode : Byte) (s : State) : Host.Outcome State Fault Refusal :=
  event (State.serveRequest (.portMode port mode) (servePortMode port mode)) s

/-! ## Stranding -/

/-- The port is stranded: the flag, the declines PORT_DOWN, the run, the MAJOR fault and the STRAND notice (R112). -/
def State.strand (s : State) (p : PortNo) : State :=
  let s := ((s.mapPort p (fun P => { P with stranded := true })).declineQueues p .portDown).closeRun p
  (s.reportFault { s.plainFault .portStranded with port := some p }).strandCause p

/-- HOLD_DOWN_EXPIRY: the time left of a RUNNING hold-down timer passes, the timer stops, and the port is stranded (R111,
R112). A STOPPED timer does not expire, and nothing happens. -/
def execHoldDownExpiry (port : PortNo) (s : State) : Host.Outcome State Fault Refusal :=
  event (fun s =>
    match (s.port port).holdDownTimer with
    | some n => ((s.elapse n).mapPort port (fun P => { P with holdDownTimer := none })).strand port
    | none => s) s

/-! ## GRADE -/

/-- A grade above DOWN: the shares are recomputed, the hold-down timer stops, the stranded flag is cleared, and a rise
from DOWN gives a selection opportunity (R109). -/
def State.gradeUp (s : State) (p : PortNo) (before g : Grade) : State :=
  let s := s.mapPort p (fun P => { P.recomputeShares g with holdDownTimer := none, stranded := false })
  if before = .down then s.ladder p else s

/-- A fall to DOWN from a grade above it: the hold-down timer starts, or the port is stranded at once when the hold-down
is 0 (R110, R117). -/
def State.gradeFall (s : State) (p : PortNo) : State :=
  let n := (s.port p).settings.holdDown * 100
  if n = 0 then s.strand p else s.mapPort p (fun P => { P with holdDownTimer := some n })

/-- A GRADE frame taken for its port: the grade is stored, the port joins the changed set of the GRADE notice, and the
effects of Table 6.4 follow (R108). -/
def State.takeGrade (p : PortNo) (g : Grade) (s : State) : State :=
  let before := (s.port p).grade
  let s := (s.mapPort p (fun P => { P with grade := g })).gradeCause p
  if g ≠ .down then s.gradeUp p before g
  else if before ≠ .down then s.gradeFall p
  else s

/-! ## The run timer -/

/-- RUN_TIMER_EXPIRY: the time left of an OPEN run passes and the run closes, with no award and no selection opportunity
(R77). A CLOSED run has no timer, and nothing happens. -/
def execRunTimerExpiry (port : PortNo) (s : State) : Host.Outcome State Fault Refusal :=
  event (fun s =>
    match (s.port port).run with
    | some x => (s.elapse x.timer).closeRun port
    | none => s) s

end Sys2Proof.Machine
end

