-- ==== Sys2Proof/Machine/SwitchLink.lean ====
section
/-! DEFINITION. The switch link unit (Chapter 7): the receive buffer, the examination of frames in SYNCED, the hunt in
RESYNC, ALERT's check pulse, the taking of each frame of the switch, and the outbound queue. -/

namespace Sys2Proof.Machine

open Sys2Proof.Wire (SwIn Examined examine hunt syncBytes)

/-! ## Receiving (R119, R122 to R124) -/

def State.setRx (s : State) (rx : List Byte) : State := { s with sw := { s.sw with rx := rx } }

/-- The unit enters RESYNC: a running check pulse ends, and a MAJOR LINK_RESYNC is reported (R122, R123). ALERT is then
held low, as R126 drives it. -/
def State.loseFraming (s : State) : State :=
  let s := { s with sw := { s.sw with link := .resync, checkPulse := none } }
  s.reportFault (s.plainFault .linkResync)

/-- In RESYNC, and while examination is not deferred, the byte positions that do not begin a good SYNC are discarded
(R119, R124). A good SYNC at which the hunt stops waits for SYNC_RESYNC_END (entry 12). -/
def State.huntRx (s : State) : State :=
  if s.sw.link = .resync ∧ !s.sw.deferred then s.setRx (hunt s.sw.rx) else s

/-- A byte from the switch joins the tail of the receive buffer; a byte that arrives at a full buffer is lost, which in
SYNCED is a loss of framing that empties the buffer (R119, R123). -/
def State.receiveByte (s : State) (b : Byte) : State :=
  if s.sw.rx.length < 256 then (s.setRx (s.sw.rx ++ [b])).huntRx
  else match s.sw.link with
    | .synced => (s.setRx []).loseFraming
    | .resync => s

def State.receiveBytes (s : State) (bs : List Byte) : State := bs.foldl State.receiveByte s

/-- The unit examines the frame at the head of the receive buffer: it is SYNCED and examination is not deferred (R119,
R120). -/
def SwitchUnit.examining (u : SwitchUnit) : Bool := u.link == .synced && !u.deferred

/-- The examination of the head of the receive buffer ends now with a result that `want` names (R120). -/
def State.finds (s : State) (want : Examined → Bool) : Bool := s.sw.examining && want (examine s.sw.rx)

/-- The bytes that a command names: they stand at the head of the receive buffer already, or else they arrive now
(entry 4). -/
def State.arrive (s : State) (want : Examined → Bool) (bs : List Byte) : State :=
  if s.finds want then s else s.receiveBytes bs

/-- The first `n` bytes leave the receive buffer. -/
def State.dropRx (s : State) (n : Nat) : State := s.setRx (s.sw.rx.drop n)

/-- A frame of the switch: it is taken at the point its examination ends, and handed to its owning block (R119, R120,
R125). A frame whose bytes are discarded in RESYNC is not taken, and one whose examination is deferred waits. -/
def State.takeFrame (f : SwIn) (handle : State → State) (s : State) : State :=
  let want (x : Examined) : Bool := match x with
    | .good g _ => g == f
    | _ => false
  let s := s.arrive want f.bytes
  if s.finds want then
    match examine s.sw.rx with
    | .good _ n => handle (s.dropRx n)
    | _ => s
  else s

/-! ## The commands of the link -/

/-- SW_BYTE_RECEIVED (R119, R123, R124). -/
def execSwByteReceived (b : Byte) (s : State) : Host.Outcome State Fault Refusal :=
  event (fun s => s.receiveByte b) s

/-- EXAMINATION_RESUME: once the outbound queue has drained to 4,000 frames the unit examines the receive buffer again
(R119): in RESYNC it hunts over the bytes that waited; in SYNCED the frame at the head is taken by its own command
(entry 11). While the queue holds more, examination stays deferred. -/
def execExaminationResume (s : State) : Host.Outcome State Fault Refusal := event State.huntRx s

/-- The check pulse starts or restarts with 2 µs remaining (R121, R126). -/
def State.startPulse (s : State) : State := { s with sw := { s.sw with checkPulse := some 2 } }

/-- DAMAGED_FRAME: the whole frame is discarded, the unit stays SYNCED, a MINOR LINK_CHECK is reported, and the check
pulse starts or restarts (R121). DESIGN CHOICE (entry 4): a damaged frame at the head of the buffer is the command's,
whatever bytes the command names, and those bytes then do not arrive. -/
def execDamagedFrame (bytes : List Byte) (s : State) : Host.Outcome State Fault Refusal :=
  event (fun s =>
    let want (x : Examined) : Bool := match x with
      | .damaged _ => true
      | _ => false
    let s := s.arrive want bytes
    if s.sw.examining then
      match examine s.sw.rx with
      | .damaged n => ((s.dropRx n).reportFault (s.plainFault .linkCheck)).startPulse
      | _ => s
    else s) s

/-- LOSS_OF_FRAMING: the first byte of the frame is discarded, the unit enters RESYNC, and the examination of the bytes that
remain continues there: the hunt runs over them in the same event (R122, R124). DESIGN CHOICE (entry 12): a good SYNC at
which it stops waits for SYNC_RESYNC_END. DESIGN CHOICE (entry 4): a frame at the head of the buffer that loses the framing
is the command's, whatever bytes the command names, and those bytes then do not arrive. -/
def execLossOfFraming (bytes : List Byte) (s : State) : Host.Outcome State Fault Refusal :=
  event (fun s =>
    let s := s.arrive (fun x => x == .lost) bytes
    if s.finds (fun x => x == .lost) then (s.dropRx 1).loseFraming.huntRx else s) s

/-- The hunt stands at a good SYNC: the unit is in RESYNC, examination is not deferred, and after the discards the
buffer begins with a good SYNC (R124). -/
def State.atSync (s : State) : Bool :=
  s.sw.link == .resync && !s.sw.deferred && syncBytes.isPrefixOf (hunt s.sw.rx)

/-- The end of RESYNC, one event of the unit: the bytes of the SYNC leave the buffer, the unit enters SYNCED, ALERT is
released, and an outbound SYNC is queued (R124). -/
def State.endResync (s : State) : State :=
  { s with sw := { s.sw with rx := (hunt s.sw.rx).drop 3, link := .synced } }.pushSwitch .sync

/-- SYNC_RESYNC_END: the good SYNC stands in the buffer, or arrives now; it ends RESYNC (R124). In SYNCED there is no
RESYNC to end, and nothing happens. -/
def execSyncResyncEnd (s : State) : Host.Outcome State Fault Refusal :=
  event (fun s =>
    match s.sw.link with
    | .synced => s
    | .resync =>
      let s := if s.atSync then s else s.receiveBytes syncBytes
      if s.atSync then s.endResync else s) s

/-- SYNC_IN_SYNCED: the SYNC is taken as a framing marker only, changes nothing and is not answered (R125). In RESYNC a
SYNC is SYNC_RESYNC_END's, and nothing happens. -/
def execSyncInSynced (s : State) : Host.Outcome State Fault Refusal :=
  event (fun s =>
    match s.sw.link with
    | .synced => s.takeFrame .sync id
    | .resync => s) s

/-- CHECK_PULSE_EXPIRY: the time left of a RUNNING pulse passes, and the pulse is NONE; ALERT is then released, as R126
drives it. Without a pulse nothing happens. -/
def execCheckPulseExpiry (s : State) : Host.Outcome State Fault Refusal :=
  event (fun s =>
    match s.sw.checkPulse with
    | some n => let s := s.elapse n; { s with sw := { s.sw with checkPulse := none } }
    | none => s) s

/-- SW_OUTBOUND_FRAME_SENT: the frame at the head of the outbound queue, the one in transmission, has been sent and
leaves the queue; the next frame begins (R127, R128). With no frame in transmission nothing happens. -/
def execSwOutboundFrameSent (s : State) : Host.Outcome State Fault Refusal :=
  event (fun s => if s.sw.sending then { s with sw := { s.sw with outq := s.sw.outq.tail } } else s) s

/-! ## The frames of the switch -/

/-- BID (R51 to R53). -/
def execBid (body : BidBody) (s : State) : Host.Outcome State Fault Refusal :=
  event (State.takeFrame (.bid body) (State.takeBid body)) s

/-- WITHDRAW (R58, R59). -/
def execWithdraw (port : PortNo) (tag : Tag) (s : State) : Host.Outcome State Fault Refusal :=
  event (State.takeFrame (.withdraw port tag) (State.takeWithdraw port tag)) s

/-- FINISH (R85 to R88). -/
def execFinish (body : FinishBody) (s : State) : Host.Outcome State Fault Refusal :=
  event (State.takeFrame (.finish body) (State.takeFinish body)) s

/-- GRADE (R108 to R110). -/
def execGrade (port : PortNo) (g : Grade) (s : State) : Host.Outcome State Fault Refusal :=
  event (State.takeFrame (.grade port g) (State.takeGrade port g)) s

/-- FORGET (R94 to R97). -/
def execForget (s : State) : Host.Outcome State Fault Refusal :=
  event (State.takeFrame .forget State.takeForget) s

end Sys2Proof.Machine
end

