-- ==== Sys2Proof/Machine/Dispatch.lean ====
section
/-! DEFINITION. One arm per command, in the order of the table: its meaning. -/

namespace Sys2Proof.Machine

def exec (i : Instr) (s : State) : Host.Outcome State Fault Refusal :=
  match i with
  | .swByteReceived b => Sys2Proof.Machine.execSwByteReceived b s
  | .examinationResume => Sys2Proof.Machine.execExaminationResume s
  | .damagedFrame bytes => Sys2Proof.Machine.execDamagedFrame bytes s
  | .lossOfFraming bytes => Sys2Proof.Machine.execLossOfFraming bytes s
  | .syncResyncEnd => Sys2Proof.Machine.execSyncResyncEnd s
  | .syncInSynced => Sys2Proof.Machine.execSyncInSynced s
  | .bid body => Sys2Proof.Machine.execBid body s
  | .withdraw port tag => Sys2Proof.Machine.execWithdraw port tag s
  | .finish body => Sys2Proof.Machine.execFinish body s
  | .grade port g => Sys2Proof.Machine.execGrade port g s
  | .forget => Sys2Proof.Machine.execForget s
  | .checkPulseExpiry => Sys2Proof.Machine.execCheckPulseExpiry s
  | .swOutboundFrameSent => Sys2Proof.Machine.execSwOutboundFrameSent s
  | .accrualTimerExpiry port => Sys2Proof.Machine.execAccrualTimerExpiry port s
  | .runTimerExpiry port => Sys2Proof.Machine.execRunTimerExpiry port s
  | .deadlineExpiry port tag => Sys2Proof.Machine.execDeadlineExpiry port tag s
  | .holdDownExpiry port => Sys2Proof.Machine.execHoldDownExpiry port s
  | .requestFrameComplete chars => Sys2Proof.Machine.execRequestFrameComplete chars s
  | .frameAbandoned => Sys2Proof.Machine.execFrameAbandoned s
  | .badFrameRequest frame => Sys2Proof.Machine.execBadFrameRequest frame s
  | .unknownKindRequest chars => Sys2Proof.Machine.execUnknownKindRequest chars s
  | .mgFrameSent => Sys2Proof.Machine.execMgFrameSent s
  | .identify => Sys2Proof.Machine.execIdentify s
  | .lineRate divider => Sys2Proof.Machine.execLineRate divider s
  | .status => Sys2Proof.Machine.execStatus s
  | .noticeEnable kinds => Sys2Proof.Machine.execNoticeEnable kinds s
  | .noticeAck kinds => Sys2Proof.Machine.execNoticeAck kinds s
  | .reset => Sys2Proof.Machine.execReset s
  | .warmReset => Sys2Proof.Machine.execWarmReset s
  | .coldResetAssert => Sys2Proof.Machine.execColdResetAssert s
  | .coldResetRelease => Sys2Proof.Machine.execColdResetRelease s
  | .portSet port body => Sys2Proof.Machine.execPortSet port body s
  | .portRead port => Sys2Proof.Machine.execPortRead port s
  | .portMode port mode => Sys2Proof.Machine.execPortMode port mode s
  | .portFlush port => Sys2Proof.Machine.execPortFlush port s
  | .sourceSet entry body => Sys2Proof.Machine.execSourceSet entry body s
  | .sourceRead entry => Sys2Proof.Machine.execSourceRead entry s
  | .contractStage port cls body => Sys2Proof.Machine.execContractStage port cls body s
  | .contractRead port cls set => Sys2Proof.Machine.execContractRead port cls set s
  | .commit ports => Sys2Proof.Machine.execCommit ports s
  | .abortCommit ports => Sys2Proof.Machine.execAbortCommit ports s
  | .lock port cls => Sys2Proof.Machine.execLock port cls s
  | .queueRead port cls => Sys2Proof.Machine.execQueueRead port cls s
  | .poolSet lowMark highMark => Sys2Proof.Machine.execPoolSet lowMark highMark s
  | .poolRead => Sys2Proof.Machine.execPoolRead s
  | .faultRead => Sys2Proof.Machine.execFaultRead s
  | .faultClear => Sys2Proof.Machine.execFaultClear s
  | .faultMode value => Sys2Proof.Machine.execFaultMode value s
  | .counterSelect port event cls => Sys2Proof.Machine.execCounterSelect port event cls s
  | .counterRead port clear => Sys2Proof.Machine.execCounterRead port clear s
  | .testBid body => Sys2Proof.Machine.execTestBid body s
  | .testFinish body => Sys2Proof.Machine.execTestFinish body s
  | .rehearsalRead => Sys2Proof.Machine.execRehearsalRead s
  | .mgCharacterReceived c => Sys2Proof.Machine.execMgCharacterReceived c s

end Sys2Proof.Machine
end

