-- ==== Sys2Proof/Machine/Step.lean ====
section
/-! DEFINITION. One step of the machine: the command at the front of the queue, or, with none waiting, one microsecond. -/

namespace Sys2Proof.Machine

/-- With no command waiting, 1 µs passes on the time base and at every timer, unless RST_N is low or an expiry is due:
time then waits for the command of that expiry (entry 1). -/
def State.tick (s : State) : State := if s.pins.rstN && !s.timerDue then s.elapse 1 else s

/-- One step: the command at the front of the queue has its effect on the state with the queue's rest. -/
def step (s : State) : Host.Outcome State Fault Refusal :=
  match s.pending with
  | [] => .next s.tick
  | c :: rest => exec c { s with pending := rest }

/-- The state with the command that a word spells at the front of its queue; unchanged where the word spells none. -/
def State.withFetchWord (s : State) (nbits w : Nat) : State :=
  match decodeTableWord nbits w with
  | some c => { s with pending := c :: s.pending }
  | none => s

end Sys2Proof.Machine
end

