-- ==== Sys2Proof/Safety.lean ====
section
/-! DEFINITION. The terms that claims use: when a command may act, what its arrival takes from the buffers, and the laws
of the part that every step keeps. -/

namespace Sys2Proof.Machine

open Sys2Proof.Wire (Verdict SwIn verdict examine isComplete)

/-! ## When a command may act -/

/-- A frame with the verdict `v` is the next to be served, and it may be served now: RST_N is high, the outbound queue
holds fewer than 15 replies, no RESET awaits its warm reset (R137), no complete frame stands in assembly, and the
inbound buffer is empty or its oldest frame has that verdict. That a command finds an empty buffer and brings its frame,
which is then served at once, is the model's choice (entry 5); so is that a frame which waits is served by its command,
and that the frame of a command passes an incomplete frame in assembly (entry 28). -/
def State.requestNext (s : State) (v : Verdict) : Prop :=
  s.pins.rstN = true ∧ s.mg.mayServe = true ∧ (∀ a, s.mg.assembly = some a → isComplete a.chars = false)
    ∧ ∀ f, s.mg.inbound.head? = some f → verdict f = v

/-- The state in which the owning block acts: the served frame has left the inbound buffer (R137). -/
def State.taken (s : State) : State := { s with mg := { s.mg with inbound := s.mg.inbound.tail } }

/-- A frame `f` that comes with its command must wait: 15 replies or more are queued, or a RESET awaits its warm reset, or
the oldest of the inbound frames, with `f` behind those that stand there, has another verdict than `v` (R137). -/
def State.requestWaits (s : State) (v : Verdict) (f : RequestFrame) : Prop :=
  15 ≤ s.mg.replies ∨ s.mg.resetStage ≠ .idle
    ∨ ∃ g, (s.mg.inbound ++ [f]).head? = some g ∧ verdict g ≠ v

/-- The command of a frame of the switch; that of a SYNC in SYNCED (R125). -/
def frameCommand : SwIn → Instr
  | .bid b => .bid b
  | .withdraw p t => .withdraw p t
  | .finish f => .finish f
  | .grade p g => .grade p g
  | .forget => .forget
  | .sync => .syncInSynced

/-- The command names bytes of the switch link, which arrive with it where they do not stand in the buffer (entry 4). -/
def carriesBytes (c : Instr) (bytes : List Byte) : Prop :=
  (∃ f : SwIn, f ≠ .sync ∧ c = frameCommand f ∧ bytes = f.bytes) ∨ c = .damagedFrame bytes ∨ c = .lossOfFraming bytes

/-- The frame `f` of the switch is the next to be examined, and it may be examined now: RST_N is high, the unit is
SYNCED, examination is not deferred (R119), and the receive buffer is empty or begins with that frame. That a command
finds an empty buffer and brings the bytes of its frame, which is then taken at once, is the model's choice (entry 4); so
is that a frame which stands in the buffer is taken by its command. -/
def State.frameNext (s : State) (f : SwIn) : Prop :=
  s.pins.rstN = true ∧ s.sw.link = .synced ∧ s.sw.outq.length ≤ 4000
    ∧ (s.sw.rx = [] ∨ ∃ n, examine s.sw.rx = .good f n)

/-- The state in which the owner of the frame acts: the frame's bytes have left the receive buffer. -/
def State.pastFrame (s : State) (f : SwIn) : State :=
  { s with sw := { s.sw with rx := s.sw.rx.drop f.bytes.length } }

/-! ## What a list of declined records leaves -/

/-- The pool after the records `rs` have been returned to it one after another, where the low mark is below the high mark:
the free count has risen by their number, and PAUSE, if it was asserted or is so at the first return, stays asserted while
the count is below the high mark (R46, R55). -/
def Pool.afterReturns (u : Pool) (rs : List BidRecord) : Pool :=
  let asserted := u.pause || decide (u.free + 1 ≤ u.lowMark)
  { u with free := u.free + rs.length
           pause := if rs = [] then u.pause else asserted && decide (u.free + rs.length < u.highMark) }

/-- The return of the records asserts PAUSE, which is a cause of the POOL notice: PAUSE was negated, and the count is at or
below the low mark after the first of them (R55). -/
def Pool.returnsAssert (u : Pool) (rs : List BidRecord) : Prop := rs ≠ [] ∧ u.pause = false ∧ u.free + 1 ≤ u.lowMark

/-- A count after `m` more events of 1, which stops at its greatest value (R157). -/
def tally (x m : Nat) : Nat := if m = 0 then x else min (x + m) counterMax

/-- The counter pair after a DECLINES event for each of the records: counter A counts them all, counter B those of the
selected class, if DECLINES is the selected event (R157). -/
def CounterPair.afterDeclines (x : CounterPair) (rs : List BidRecord) : CounterPair :=
  if x.event = .declines then
    { x with a := tally x.a rs.length, b := tally x.b (rs.countP (fun r => r.cls == x.cls)) }
  else x

/-! ## Laws that every step keeps -/

/-- From every state that meets the law, a step gives a state that meets it. -/
def KeptByStep (Law : State → Prop) : Prop := ∀ s t : State, Law s → step s = .next t → Law t

/-- The pins stand at the levels of R126, R129, R146 and R148. -/
def State.PinsFollow (s : State) : Prop := s.pins = s.pinLevels

/-- The queued and awarded records of a port. -/
def Port.records (P : Port) : List BidRecord := P.queued ++ P.awards.map (fun a => a.bid)

/-- The queued and awarded records of the part. -/
def State.records (s : State) : List BidRecord := s.ports.toList.flatMap Port.records

/-- Every record is free, queued or awarded (R45), and each outstanding count is the number of held records of its
entry (R44). -/
def State.RecordsAccounted (s : State) : Prop :=
  s.pool.free + s.records.length = 2048
    ∧ ∀ e : EntryNo, (s.source e).outstanding = s.records.countP (fun b => b.source == e)

/-- No two held records of one port carry the same tag (R47). -/
def State.TagsUnique (s : State) : Prop := ∀ p : PortNo, ((s.port p).records.map (fun b => b.tag)).Nodup

/-- A row's accounts and remainders lie within R37, and its queued records have lengths of 1..1,048,576 (Table 3.2). -/
def Row.Bounded (r : Row) : Prop :=
  -1048575 ≤ r.fb ∧ r.fb ≤ burstBytes r.contract.floorBurst
    ∧ -4194304 ≤ r.cb ∧ r.cb ≤ burstBytes r.contract.ceilingBurst
    ∧ r.rf ≤ 4095 ∧ r.rc ≤ 4095 ∧ ∀ b ∈ r.queue, 1 ≤ b.length ∧ b.length ≤ 1048576

def State.AccountsBounded (s : State) : Prop := ∀ (p : PortNo) (c : ClassNo), ((s.port p).row c).Bounded

/-- The law of R64, with what keeps it: a port that may award has no eligible bid and no open run (R70), and an OFF port
has no queued record and no open run (R101, R106). -/
def State.LadderLaw (s : State) : Prop :=
  ∀ p : PortNo,
    (s.mayAward p = true → (s.port p).pass.2 = none ∧ (s.port p).run = none)
      ∧ ((s.port p).mode = .off → (s.port p).queued = [] ∧ (s.port p).run = none)

/-- A locked cell's active row is valid and protected with f at least the locked floor (R20), and the staged row that a
pending commit would put there keeps the lock (R11). -/
def State.LocksHold (s : State) : Prop :=
  ∀ (p : PortNo) (c : ClassNo),
    ((s.port p).lockCell c).brokenBy ((s.port p).row c).contract = false
      ∧ ((s.port p).commitStatus = .pending → ((s.port p).lockCell c).brokenBy ((s.port p).stagedRow c) = false)

/-- The contract fields lie in their ranges, f at most c and the floor burst at most the ceiling burst (Table 1.1, R7). -/
def Contract.InRange (x : Contract) : Prop :=
  x.floorShare ≤ x.ceilingShare ∧ 1 ≤ x.ceilingShare ∧ x.ceilingShare ≤ 1024
    ∧ x.floorBurst ≤ x.ceilingBurst ∧ 1 ≤ x.ceilingBurst ∧ x.ceilingBurst ≤ 65535
    ∧ 1 ≤ x.queueLimit ∧ x.queueLimit ≤ 255 ∧ x.runHold ≤ 65535

/-- The sum of f over the valid ones among some contracts (R11). -/
def floorSum (cs : List Contract) : Nat := ((cs.filter Contract.valid).map Contract.floorShare).sum

/-- The shares of a port: the floor shares of its valid rows sum to at most 1024, and so will those that a pending commit
puts there (R11); the reference grade is above DOWN, and is the grade while that is above DOWN; every row has the
effective shares of R29 to R31 at the reference grade (R28); the effective floor shares sum to at most 1024, and each
valid row has e ≤ ce ≤ 1024 (R31). -/
def Port.SharesHold (P : Port) : Prop :=
  floorSum P.contracts ≤ 1024 ∧ (P.commitStatus = .pending → floorSum P.staged.toList ≤ 1024)
    ∧ P.referenceGrade ≠ .down ∧ (P.grade ≠ .down → P.referenceGrade = P.grade)
    ∧ (∀ c : ClassNo, ((P.row c).e, (P.row c).ce)
        = effectiveShares (4 / gradeValue P.referenceGrade) P.contracts (P.row c).contract)
    ∧ (P.active.toList.map Row.e).sum ≤ 1024
    ∧ ∀ c : ClassNo, (P.row c).contract.valid = true → (P.row c).e ≤ (P.row c).ce ∧ (P.row c).ce ≤ 1024

/-- The laws of the allotment tables and row queues: contracts, active and staged, lie in their ranges; a queue holds at
most 255 records, and that of an invalid row none (R49); and the shares of every port hold. -/
def State.TablesHold (s : State) : Prop :=
  ∀ p : PortNo,
    (∀ c : ClassNo, ((s.port p).row c).contract.InRange ∧ ((s.port p).stagedRow c).InRange
        ∧ ((s.port p).row c).queue.length ≤ 255
        ∧ (((s.port p).row c).contract.valid = false → ((s.port p).row c).queue = []))
      ∧ (s.port p).SharesHold

/-- The PENDING ports are the ports of the commit groups; a port belongs to at most one group, and no group is empty
(R12). -/
def State.GroupsHold (s : State) : Prop :=
  (∀ p : PortNo, (s.port p).commitStatus = .pending ↔ ∃ g ∈ s.groups, names g p = true)
    ∧ s.groups.Pairwise (fun a b => a &&& b = 0) ∧ ∀ g ∈ s.groups, g ≠ 0

/-- Above DOWN a port is not stranded and its hold-down timer is STOPPED (Table 6.4); while the timer is RUNNING the port
is not yet stranded (R110, R112). -/
def Port.ConditionHolds (P : Port) : Prop :=
  (P.grade ≠ .down → P.stranded = false ∧ P.holdDownTimer = none) ∧ (P.holdDownTimer ≠ none → P.stranded = false)

/-- The port conditions hold; no check pulse runs in RESYNC (R126); more-major is set only while the record holds a
MAJOR fault, and no flag while it is EMPTY (R151). -/
def State.FlagsHold (s : State) : Prop :=
  (∀ p : PortNo, (s.port p).ConditionHolds) ∧ (s.sw.link = .resync → s.sw.checkPulse = none)
    ∧ (s.faults.moreMajor = true → ∃ f, s.faults.held = some f ∧ f.kind.severity = .major)
    ∧ (s.faults.held = none → s.faults.moreMinor = false ∧ s.faults.moreMajor = false)

/-- The window and the award list of a port (R62, R115). -/
def Port.WindowHolds (P : Port) : Prop := 1 ≤ P.settings.window ∧ P.settings.window ≤ 8 ∧ P.awards.length ≤ 8

/-- The ranges of a source entry (Table 3.1). -/
def SourceEntry.InRange (x : SourceEntry) : Prop := 1 ≤ x.limit ∧ x.limit ≤ 255 ∧ x.outstanding ≤ 255

/-- The management outbound queue holds at most 15 replies and one unsent NOTICE, and a NOTICE with content only at its
head (R133, R143). -/
def MgUnit.QueueHolds (u : MgUnit) : Prop :=
  u.replies ≤ 15 ∧ u.outq.countP (fun f => f == .notice none) ≤ 1
    ∧ ∀ f ∈ u.outq.tail, ∀ n, f ≠ .notice (some n)

/-- The bounds that the manual gives: windows and award lists (R83, R115), source entries (R39), PAUSE marks (R54), the
receive buffer (R118), the inbound buffer and the management outbound queue (R133). -/
def State.BoundsHold (s : State) : Prop :=
  (∀ p : PortNo, (s.port p).WindowHolds) ∧ (∀ e : EntryNo, (s.source e).InRange)
    ∧ s.pool.lowMark < s.pool.highMark ∧ s.pool.highMark ≤ 2048
    ∧ s.sw.rx.length ≤ 256 ∧ s.mg.inbound.length ≤ 4 ∧ s.mg.QueueHolds

/-- The number of records on the award lists of the ports in REHEARSAL (R160). -/
def State.rehearsalAwards (s : State) : Nat :=
  (s.ports.toList.map (fun P => if P.mode = .rehearsal then P.awards.length else 0)).sum

/-- Entries and reserved places fit in the 64 places of the log, and the reserved places are those of the awarded
records of the ports in REHEARSAL (R160). -/
def State.LogAccounted (s : State) : Prop :=
  s.log.entries.length + s.log.reserved ≤ 64 ∧ s.log.reserved = s.rehearsalAwards

end Sys2Proof.Machine
end

