-- ==== Sys2Proof/Certificates/Slice0/Obligations.lean ====
section
/-! DEFINITION. What is claimed of the model, for the provers: the machine and its queue, the two links, the laws that
every step keeps, the operations that the commands share, and the result of every command. A statement of a command gives
the whole next state: what it does not name stays as it was. -/

open Sys2Proof Sys2Proof.Machine
open Sys2Proof.Wire (SwIn SwKind Verdict crc8 crc16 examine hunt syncBytes verdict requestParts requestFrame kindOf
  isComplete settingsOfBytes sourceOfBytes contractOfBytes bytes2 bytes3 bytes4 portNibble)

/-! ## The machine -/

/-- A step runs the command at the front of the queue on the state with the queue's rest. The queue is the model's own
(entry 18). -/
def Obligations.StepRunsTheFrontCommand : Prop :=
  ∀ (s : State) (c : Instr) (rest : List Instr), s.pending = c :: rest → step s = exec c { s with pending := rest }

/-- With no command waiting, RST_N high and no expiry due, a step is 1 µs on the time base and at every timer, and nothing
else. That an empty queue lets time pass is the model's choice (entry 1). -/
def Obligations.IdleStepLetsOneMicrosecondPass : Prop :=
  ∀ s : State, s.pending = [] → s.pins.rstN = true → s.timerDue = false →
    ∃ t : State, step s = .next t
      ∧ t = { s with timeBase := s.timeBase + 1, ports := t.ports, sw := { s.sw with checkPulse := t.sw.checkPulse },
                     mg := { s.mg with assembly := t.mg.assembly } }
      ∧ (∀ p : PortNo, t.port p = { s.port p with accrualTimer := (t.port p).accrualTimer, run := (t.port p).run,
                                                  awards := (t.port p).awards,
                                                  holdDownTimer := (t.port p).holdDownTimer }
          ∧ (t.port p).accrualTimer + 1 = (s.port p).accrualTimer
          ∧ (s.port p).run = (t.port p).run.map (fun x => { x with timer := x.timer + 1 })
          ∧ (s.port p).awards = (t.port p).awards.map (fun a => { a with timer := a.timer + 1 })
          ∧ (s.port p).holdDownTimer = (t.port p).holdDownTimer.map (· + 1))
      ∧ s.sw.checkPulse = t.sw.checkPulse.map (· + 1)
      ∧ (s.mg.assembly = none → t.mg.assembly = none)
      ∧ ∀ a, s.mg.assembly = some a →
          t.mg.assembly = some { a with gap := a.gap - 1 } ∧ (isComplete a.chars = false → 0 < a.gap)

/-- No command puts a command into the queue or takes one from it. -/
def Obligations.CommandsKeepTheQueue : Prop :=
  ∀ (c : Instr) (s t : State), exec c s = .next t → t.pending = s.pending

/-- While RST_N is low the part takes no event (R148): every command but those of the reset line leaves the state as it
is. That such a command is no error and changes nothing is the model's choice (entry 8). -/
def Obligations.NoEventWhileResetIsLow : Prop :=
  ∀ (c : Instr) (s : State), s.pins.rstN = false → c ≠ .coldResetAssert → c ≠ .coldResetRelease →
    exec c s = .next s

/-! ## The two links -/

/-- Every request, with every operand, is read back from the frame that carries it. The tests of R138 fail in their
order: a frame that was abandoned, or whose last two characters are not the CRC-16 of those before them, is a bad frame;
with a right CRC-16, a kind of no request is an unknown kind, and a body whose length is not that of its kind makes a bad
frame; a body of the right length always makes the request whose body it is, where the four unassigned bits of a
TEST-FINISH are ignored (R138, R167, R170, Table 11.3). -/
def Obligations.RequestFramesReadBack : Prop :=
  (∀ (i : Instr) (kind : Byte) (body : List Byte), requestParts i = some (kind, body) →
    verdict (requestFrame i) = .request i ∧ kindOf (requestFrame i) = kind
      ∧ isComplete (requestFrame i).chars = true)
  ∧ (∀ chars : List Byte, verdict { chars := chars, abandoned := true } = .badFrame)
  ∧ (∀ (covered : List Byte) (c : BitVec 16), c ≠ crc16 covered →
      verdict { chars := covered ++ bytes2 c, abandoned := false } = .badFrame)
  ∧ (∀ (f : FinishBody) (unassigned : BitVec 4),
      let covered := bytes2 6 ++ 0x61 :: portNibble f.port unassigned :: (bytes2 f.tag ++ bytes3 f.moved)
      verdict { chars := covered ++ bytes2 (crc16 covered), abandoned := false } = .request (.testFinish f))
  ∧ ∀ (kind : Byte) (body : List Byte), body.length < 65536 →
      let covered := bytes2 (BitVec.ofNat 16 body.length) ++ kind :: body
      let answer := verdict { chars := covered ++ bytes2 (crc16 covered), abandoned := false }
      ((∀ i b, requestParts i ≠ some (kind, b)) → answer = .unknownKind)
        ∧ ∀ i b, requestParts i = some (kind, b) →
            (b.length ≠ body.length → answer = .badFrame)
            ∧ (b.length = body.length → ∃ j body', answer = .request j ∧ requestParts j = some (kind, body')
                ∧ (kind ≠ 0x61 → body' = body))

/-- Every frame of the switch, with every operand, is read back from its bytes, whatever bytes follow it. The tests of R120
fail in their order: a first byte that is no kind code, and a body length that is not that of the kind, are a loss of
framing at once; the examination else waits for the whole frame; a wrong CRC-8 makes a damaged frame of the length of its
kind; with a right one, a GRADE of an undefined code is a loss of framing, and every other body makes the frame whose body
it is, where the four unassigned bits of a WITHDRAW and of a FINISH are ignored (R120, R167 to R169). -/
def Obligations.SwitchFramesReadBack : Prop :=
  (∀ (f : SwIn) (rest : List Byte), examine (f.bytes ++ rest) = .good f f.bytes.length)
  ∧ (∀ (b : Byte) (rest : List Byte), b ∉ [0x21, 0x22, 0x23, 0x24, 0x2E, 0x5A] → examine (b :: rest) = .lost)
  ∧ examine [] = .incomplete
  ∧ ∀ k : SwKind,
      let n := k.bodyLength
      let whole := fun body : List Byte => k.code :: BitVec.ofNat 8 n :: body
      examine [k.code] = .incomplete
        ∧ (∀ (b : Byte) (rest : List Byte), b ≠ BitVec.ofNat 8 n → examine (k.code :: b :: rest) = .lost)
        ∧ (∀ rest : List Byte, rest.length < n + 1 → examine (whole rest) = .incomplete)
        ∧ ∀ (body rest : List Byte), body.length = n →
            (∀ c, c ≠ crc8 (whole body) → examine (whole body ++ c :: rest) = .damaged (n + 3))
            ∧ (k = .grade → (∀ h, body = [h] → h.extractLsb' 0 4 ∉ ([0, 1, 2, 4] : List (BitVec 4))) →
                examine (whole body ++ crc8 (whole body) :: rest) = .lost)
            ∧ (k ≠ .grade ∨ (∃ h, body = [h] ∧ h.extractLsb' 0 4 ∈ ([0, 1, 2, 4] : List (BitVec 4))) →
                ∃ f, f.kind = k ∧ (k ≠ .withdraw → k ≠ .finish → f.body = body)
                  ∧ examine (whole body ++ crc8 (whole body) :: rest) = .good f (n + 3))
            ∧ (∀ p t unassigned, k = .withdraw → body = portNibble p unassigned :: bytes2 t →
                examine (whole body ++ crc8 (whole body) :: rest) = .good (.withdraw p t) (n + 3))
            ∧ (∀ (f : FinishBody) unassigned, k = .finish →
                body = portNibble f.port unassigned :: (bytes2 f.tag ++ bytes3 f.moved) →
                examine (whole body ++ crc8 (whole body) :: rest) = .good (.finish f) (n + 3))

/-! ## Laws that every step keeps -/

/-- Every law below holds right after a cold reset. -/
def Obligations.LawsHoldAtReset : Prop :=
  State.reset.PinsFollow ∧ State.reset.RecordsAccounted ∧ State.reset.TagsUnique ∧ State.reset.AccountsBounded
    ∧ State.reset.LadderLaw ∧ State.reset.LocksHold ∧ State.reset.TablesHold ∧ State.reset.GroupsHold
    ∧ State.reset.FlagsHold ∧ State.reset.BoundsHold ∧ State.reset.LogAccounted

/-- ATTN, ALERT and PAUSE follow the state after every step (R126, R129, R146, R148). -/
def Obligations.PinsFollowTheState : Prop := KeptByStep State.PinsFollow

/-- Free, queued and awarded records number 2048, and each outstanding count is the number of records that name its entry
(R44, R45, R99). -/
def Obligations.EveryRecordIsAccounted : Prop := KeptByStep State.RecordsAccounted

/-- No two queued or awarded records of one port carry the same tag (R47, R83). -/
def Obligations.TagsStayUnique : Prop := KeptByStep State.TagsUnique

/-- Every floor account lies between −1,048,575 and its floor burst, every ceiling account between −4,194,304 and its
ceiling burst, and every remainder in 0..4095 (R37). -/
def Obligations.AccountsStayBounded : Prop := KeptByStep State.AccountsBounded

/-- After every event, a port that may award has no eligible bid and no open run (R64, R70). -/
def Obligations.NoEligibleBidWaits : Prop := KeptByStep State.LadderLaw

/-- A locked cell's active row stays valid and protected with f at least the locked floor (R20). Contracts stay in their
ranges, with f at most c and c at most 1024 (Table 1.1, R7); a row queue holds at most 255 records, and the queue of an
invalid row none (R49); the floor shares of the valid rows of a port sum to at most 1024 (R11); every row has its
effective shares of R29 to R31 at the reference grade, which sum to at most 1024, with e ≤ ce ≤ 1024 for each valid row
(R28, R31). -/
def Obligations.LocksAndTablesAlwaysHold : Prop := KeptByStep State.LocksHold ∧ KeptByStep State.TablesHold

/-- The PENDING ports are those of the commit groups, each in one group (R1, R12, R18, R19). A port above DOWN is not
stranded and has no hold-down timer running (R110, R111); no check pulse runs in RESYNC (R126); the summary flags of the
fault record agree with the held fault (R151). Award lists and windows hold at most 8 records, limits and outstanding
counts at most 255, the buffers and the management queue what the manual gives them room for, and the high mark stands
above the low mark (R39, R54, R83, R118, R133). -/
def Obligations.GroupsFlagsAndBoundsHold : Prop :=
  KeptByStep State.GroupsHold ∧ KeptByStep State.FlagsHold ∧ KeptByStep State.BoundsHold

/-- The rehearsal log's entries and reserved places fit its 64 places, and one place is reserved for each awarded record
of a port in REHEARSAL (R160). -/
def Obligations.RehearsalLogHasItsPlaces : Prop := KeptByStep State.LogAccounted

/-! ## What only its own command changes -/

/-- The contracts of the active rows change only at an accrual expiry of their port, at which a commit is applied (R4),
and by a cold reset; modes only by PORT-MODE, grades only by GRADE, settings only by PORT-SET (R100), the fields of the
source map that the host writes only by SOURCE-SET (R39), lock cells only by LOCK (R20), and each of these by a cold
reset. -/
def Obligations.OnlyItsCommandChangesAField : Prop :=
  ∀ (c : Instr) (s t : State), exec c s = .next t → c ≠ .coldResetRelease →
    (∀ p : PortNo, c ≠ .accrualTimerExpiry p → (t.port p).contracts = (s.port p).contracts)
      ∧ ((∀ pb m, c ≠ .portMode pb m) → ∀ p : PortNo, (t.port p).mode = (s.port p).mode)
      ∧ (∀ p : PortNo, (∀ g, c ≠ .grade p g) → (t.port p).grade = (s.port p).grade)
      ∧ ((∀ pb b, c ≠ .portSet pb b) → ∀ p : PortNo, (t.port p).settings = (s.port p).settings)
      ∧ ((∀ e b, c ≠ .sourceSet e b) →
          ∀ e : EntryNo, t.source e = { s.source e with outstanding := (t.source e).outstanding })
      ∧ ((∀ p k, c ≠ .lock p k) → ∀ (p : PortNo) (k : ClassNo), (t.port p).lockCell k = (s.port p).lockCell k)

/-! ## Operations that the commands share -/

/-- A reported fault joins the kinds-seen set, and acts on the record by Table 9.3: it is captured by an EMPTY record,
replaces a held MINOR fault if it is MAJOR, and else sets a summary flag; a captured or replacing fault is a cause of the
FAULT notice. A MINOR fault under ignore-minor does nothing more than join the set (R151). -/
def Obligations.ReportedFaultActsOnTheRecord : Prop :=
  ∀ (s : State) (f : FaultReport),
    let minor := f.kind.severity = .minor
    let ignored := s.faults.ignoreMinor = true ∧ minor
    let heldMajor := ∃ h, s.faults.held = some h ∧ h.kind.severity = .major
    let heldMinor := ∃ h, s.faults.held = some h ∧ h.kind.severity = .minor
    let captured := ¬ ignored ∧ (s.faults.held = none ∨ (heldMinor ∧ ¬ minor))
    ∃ u : FaultUnit,
      u.kindsSeen = s.faults.kindsSeen ||| f.kind.mask ∧ u.ignoreMinor = s.faults.ignoreMinor
        ∧ (captured → u.held = some f) ∧ (¬ captured → u.held = s.faults.held)
        ∧ (u.moreMinor = true ↔ s.faults.moreMinor = true ∨
            (¬ ignored ∧ s.faults.held ≠ none ∧ (minor ∨ heldMinor)))
        ∧ (u.moreMajor = true ↔ s.faults.moreMajor = true ∨ (heldMajor ∧ ¬ minor))
        ∧ (captured → s.reportFault f = { s with faults := u }.noticeCause .fault)
        ∧ (¬ captured → s.reportFault f = { s with faults := u })

/-- The cause of a notice kind makes the kind pending, and, if the kind is enabled, calls for a NOTICE, which joins the
tail of the queue unless one is waiting unsent; nothing else changes (R142, R143). -/
def Obligations.NoticeCauseCallsForANotice : Prop :=
  ∀ (s : State) (k : NoticeKind),
    let called := s.mg.enables.getLsbD k.index = true ∧ MgOut.notice none ∉ s.mg.outq
    ∃ q : List MgOut,
      s.noticeCause k = { s with mg := { s.mg with
          outq := q, notices := { s.mg.notices with pending := s.mg.notices.pending ||| k.mask } } }
        ∧ (called → q = s.mg.outq ++ [.notice none]) ∧ (¬ called → q = s.mg.outq)
        ∧ ∀ j : NoticeKind, (s.noticeCause k).mg.notices.pending.getLsbD j.index = true ↔
            j = k ∨ s.mg.notices.pending.getLsbD j.index = true

/-- The end of an event: on an idle management line the oldest frame begins, a NOTICE taking the sets as they stand; with
no enabled kind pending the waiting NOTICE frames before the first reply leave unsent; after a RESET reply none begins
(R139, R143, R147). The switch link sends while its queue holds a frame (R127), and the pins follow (R126, R129, R146). -/
def Obligations.EndOfEventBeginsTheNextFrames : Prop :=
  ∀ s : State, s.pins.rstN = true →
    let t := s.settle
    t = { s with pins := { rstN := true, attn := decide (s.mg.notices.pending &&& s.mg.enables ≠ 0),
                           alertLow := decide (s.sw.link = .resync ∨ s.sw.checkPulse ≠ none),
                           pause := s.pool.pause },
                 sw := { s.sw with sending := !s.sw.outq.isEmpty },
                 mg := { s.mg with outq := t.mg.outq, sending := t.mg.sending } }
      ∧ (s.mg.sending = true ∨ s.mg.resetStage = .replySent →
          t.mg.outq = s.mg.outq ∧ t.mg.sending = s.mg.sending)
      ∧ (s.mg.sending = false → s.mg.resetStage ≠ .replySent →
          (s.mg.notices.pending &&& s.mg.enables ≠ 0 →
            (s.mg.outq = [] → t.mg.outq = [] ∧ t.mg.sending = false)
            ∧ (∀ r rest, s.mg.outq = .reply r :: rest → t.mg.outq = s.mg.outq ∧ t.mg.sending = true)
            ∧ (∀ rest, s.mg.outq = .notice none :: rest →
                t.mg.outq = .notice (some s.mg.notices) :: rest ∧ t.mg.sending = true))
          ∧ (s.mg.notices.pending &&& s.mg.enables = 0 → (∀ n, MgOut.notice (some n) ∉ s.mg.outq) →
            t.mg.outq = s.mg.outq.dropWhile (fun f => f == .notice none)
              ∧ t.mg.sending = !t.mg.outq.isEmpty))

/-- The return of a record: the free count rises by 1, the outstanding count of its source falls by 1, and PAUSE is
re-evaluated: asserted, with the POOL notice, at or below the low mark, negated at or above the high mark, else kept;
nothing else changes (R46, R55). POOL-SET brings the marks into their ranges, the high mark above the low mark, stores
them, and re-evaluates PAUSE at once; the reply is CLAMPED if a value was changed (R56). -/
def Obligations.PauseFollowsTheMarks : Prop :=
  (∀ (s : State) (r : BidRecord),
    let free := s.pool.free + 1
    let x := s.source r.source
    let asserts := s.pool.pause = false ∧ free ≤ s.pool.lowMark
    ∃ pause : Bool,
      (pause = true ↔ asserts ∨ (s.pool.pause = true ∧ free < s.pool.highMark))
        ∧ (let t := { s.setSource r.source { x with outstanding := x.outstanding - 1 } with
                        pool := { s.pool with free := free, pause := pause } }
           (asserts → s.returnRecord r = t.noticeCause .pool) ∧ (¬ asserts → s.returnRecord r = t)))
  ∧ ∀ (lo hi : BitVec 16) (s : State), s.requestNext (.request (.poolSet lo hi)) →
    let l := min lo.toNat 2047
    let h := max (l + 1) (min hi.toNat 2048)
    let u := { s.taken with pool := { s.pool with lowMark := l, highMark := h } }.evaluatePause
    exec (.poolSet lo hi) s = .next (u.queueReply 0x40
        (if lo.toNat = l ∧ hi.toNat = h then .ok else .clamped)
        (nat2 l ++ nat2 h ++ nat2 s.pool.free ++ [flag u.pool.pause]) .nothing).settle
      ∧ l < h ∧ h ≤ 2048
      ∧ (u.pool.pause = true ↔
          (s.pool.pause = false ∧ s.pool.free ≤ l) ∨ (s.pool.pause = true ∧ s.pool.free < h))

/-- The declines of a port's queues take the records in ascending class order and from head to tail: each is answered by a
DECLINE with the cause, unless the port is in REHEARSAL, returns to the pool, where PAUSE follows the marks (R46, R55),
and is a DECLINES event of its class, which both counters count up to their greatest value (R157); every queue of the
port is then empty, and its award list, accounts and every other port are as they were (R60, R103, R112). PORT-FLUSH so
declines the queues of its port FLUSHED and answers with the number of the declined records; a port above 15 is
NOT_ALLOWED (R60). -/
def Obligations.QueuesAreDeclinedInOrder : Prop :=
  (∀ (pb : Byte) (s : State), s.requestNext (.request (.portFlush pb)) →
    (16 ≤ pb.toNat → exec (.portFlush pb) s
        = .next (s.taken.queueReply 0x13 .notAllowed (zeros 2) .nothing).settle)
      ∧ ∀ p : PortNo, pb.toNat = p.val → exec (.portFlush pb) s
        = .next ((s.taken.declineQueues p .flushed).queueReply 0x13 .ok (nat2 (s.port p).queued.length) .nothing).settle)
  ∧ ∀ (s : State) (p : PortNo) (cause : Cause),
    let t := s.declineQueues p cause
    let declined := (s.port p).queued
    let frames := declined.map (fun b => SwOut.decline p b.tag cause)
    t.sw = { s.sw with outq := s.sw.outq ++ if (s.port p).mode = .rehearsal then [] else frames }
      ∧ t.pool.free = s.pool.free + declined.length
      ∧ (s.pool.lowMark < s.pool.highMark → t.pool = s.pool.afterReturns declined
          ∧ (s.pool.returnsAssert declined → t.mg = (s.noticeCause .pool).mg)
          ∧ (¬ s.pool.returnsAssert declined → t.mg = s.mg))
      ∧ (∀ e, t.source e = { s.source e with
          outstanding := (s.source e).outstanding - declined.countP (fun b => b.source == e) })
      ∧ (∀ c, (t.port p).row c = { (s.port p).row c with queue := [] })
      ∧ t.port p = { s.port p with
          active := (t.port p).active, counters := (s.port p).counters.afterDeclines declined }
      ∧ (∀ q, q ≠ p → t.port q = s.port q)
      ∧ t.pending = s.pending ∧ t.pins = s.pins ∧ t.timeBase = s.timeBase ∧ t.groups = s.groups
      ∧ t.faults = s.faults ∧ t.log = s.log

/-- The effective shares of the rows of a port at a grade above DOWN, with k = 4 / g: the protected rows take their
demands, the lesser of 1024 and f × k, scaled down where they sum above 1024 (R29); the unprotected rows share what is
left (R30); the ceiling share of a protected row is at least its floor share (R31). The floor shares of the valid rows
sum to at most 1024, and at FULL grade, with the floor shares within 1024, every valid row gets e = f and ce = c. -/
def Obligations.EffectiveSharesFitThePort : Prop :=
  ∀ (g : Grade) (cs : List Contract), g ≠ .down →
    (∀ c ∈ cs, c.floorShare ≤ c.ceilingShare ∧ c.ceilingShare ≤ 1024) →
    let k := 4 / gradeValue g
    let e := fun c => (effectiveShares k cs c).1
    let ce := fun c => (effectiveShares k cs c).2
    let d := fun c : Contract => min 1024 (c.floorShare * k)
    let prot := cs.filter (fun c => c.valid && c.isProtected)
    let unprot := cs.filter (fun c => c.valid && !c.isProtected)
    let S := (prot.map d).sum
    let L := 1024 - (prot.map e).sum
    let U := (unprot.map (fun c => c.floorShare)).sum
    (∀ c ∈ cs, c.valid = false → e c = 0 ∧ ce c = 0)
      ∧ (∀ c ∈ prot, e c = if S ≤ 1024 then d c else d c * 1024 / S)
      ∧ (prot.map e).sum ≤ 1024
      ∧ (∀ c ∈ unprot, e c = if U ≤ L then c.floorShare else c.floorShare * L / U)
      ∧ (∀ c ∈ unprot, e c ≤ c.floorShare ∧ (U = 0 → e c = 0) ∧ (L = 0 → e c = 0))
      ∧ (∀ c ∈ prot, ce c = max c.ceilingShare (e c)) ∧ (∀ c ∈ unprot, ce c = c.ceilingShare)
      ∧ (∀ c ∈ cs, c.valid = true → e c ≤ ce c ∧ ce c ≤ 1024)
      ∧ (cs.map e).sum ≤ 1024
      ∧ (g = .full → ((cs.filter (fun c => c.valid)).map (fun c => c.floorShare)).sum ≤ 1024 →
          ∀ c ∈ cs, c.valid = true → e c = c.floorShare ∧ ce c = c.ceilingShare)

/-- The accrual of a row is exact: the whole bytes added to each account and the remainder carried make up the product
R × T × g × share and the remainder before it, and the account is then bounded by its burst; an invalid row is
unchanged, and so, at grade DOWN, is a row within its bursts (R32, R33). -/
def Obligations.AccrualIsExact : Prop :=
  ∀ (P : Port) (c : ClassNo),
    let r := P.row c
    let t := P.accrue.row c
    let product := P.settings.baseRate * P.loadedPeriod * gradeValue P.grade
    (r.contract.valid = false → t = r)
      ∧ (r.contract.valid = true →
          ∃ addF addC : Nat,
            4096 * addF + t.rf = product * r.e + r.rf ∧ t.rf < 4096
              ∧ 4096 * addC + t.rc = product * r.ce + r.rc ∧ t.rc < 4096
              ∧ t.fb = min (r.fb + addF) (1024 * r.contract.floorBurst)
              ∧ t.cb = min (r.cb + addC) (1024 * r.contract.ceilingBurst)
              ∧ t = { r with fb := t.fb, cb := t.cb, rf := t.rf, rc := t.rc })
      ∧ (P.grade = .down → r.Bounded → t = r)
      ∧ P.accrue = { P with active := P.accrue.active }

/-- A scan from a pointer holding p examines the classes p + 1, …, 15, 0, …, p and chooses the first that is valid, in
the lane, has a queued record and its account above 0; it yields nothing where no class meets this (R65). A pass takes
the steps of Table 4.2 in order: the PRIME floor; an open run, which yields or closes; the MAIN and
BACKFILL floors; the ceilings of PRIME, MAIN and BACKFILL. A pass that yields nothing leaves the run CLOSED (R66 to
R70). -/
def Obligations.PassTakesTheStepsInOrder : Prop :=
  (∀ (P : Port) (l : Lane) (k : Charge),
    let p := P.pointers.get l k
    let meets := fun c : ClassNo => (P.row c).contract.valid = true ∧ (P.row c).contract.lane = l
      ∧ (P.row c).queue ≠ [] ∧ 0 < (match k with | .floor => (P.row c).fb | .ceiling => (P.row c).cb)
    (∀ n : Nat, n < 16 → meets (p + 1 + Fin.ofNat 16 n) → (∀ m < n, ¬ meets (p + 1 + Fin.ofNat 16 m)) →
        P.scan l k = some (p + 1 + Fin.ofNat 16 n))
      ∧ ((∀ c, ¬ meets c) → P.scan l k = none))
  ∧ ∀ P : Port,
    let floor := fun (l : Lane) (c : ClassNo) => P.pass = (P, some { cls := c, charge := .floor, via := .scan l })
    let Q := { P with run := none }
    let later := fun x : Option Selection => P.pass = (Q, x)
    let runYields := fun x : Run => (P.row x.cls).contract.valid = true
      ∧ (∃ b rest, (P.row x.cls).queue = b :: rest ∧ b.source = x.source ∧ b.key = x.key)
      ∧ (0 < (P.row x.cls).fb ∨ 0 < (P.row x.cls).cb)
    let pick := fun (l : Lane) (k : Charge) => (P.scan l k).map (fun c => Selection.mk c k (.scan l))
    (∀ c, P.scan .prime .floor = some c → floor .prime c)
      ∧ (P.scan .prime .floor = none →
          (∀ x, P.run = some x → runYields x →
              P.pass = (P, some { cls := x.cls, charge := if 0 < (P.row x.cls).fb then .floor else .ceiling,
                                  via := .run }))
          ∧ ((∀ x, P.run = some x → ¬ runYields x) →
              later ([pick .main .floor, pick .backfill .floor, pick .prime .ceiling, pick .main .ceiling,
                      pick .backfill .ceiling].findSome? id)))

/-- An award moves the head record of the chosen row to the tail of the award list with its award fields, charges the row
the record's length, sets the pointer that was scanned, and opens a run where R76 says so; the pool, the sources and the
other ports are as they were (R71 to R73, R75, R76). It tells the switch by AWARD (R74); on a port in REHEARSAL it instead
appends an AWARD entry with the record's fields and the award time to the log and reserves a second place, and where the
log held no entry it is a cause of the REHEARSAL notice (R162). -/
def Obligations.AwardMovesTheHeadRecord : Prop :=
  ∀ (s : State) (p : PortNo) (x : Selection) (b : BidRecord) (rest : List BidRecord),
    ((s.port p).row x.cls).queue = b :: rest →
    let P := s.port p
    let r := P.row x.cls
    let t := s.award p x
    let entry : LogEntry := { kind := .award, port := p, tag := b.tag, cls := b.cls, charge := x.charge,
                              length := b.length, time := s.timeBase }
    let logged := { s with
      ports := t.ports, log := { entries := s.log.entries ++ [entry], reserved := s.log.reserved + 1 } }
    (P.mode ≠ .rehearsal →
        t = { s with ports := t.ports, sw := { s.sw with outq := s.sw.outq ++ [.award p b.tag] } })
      ∧ (P.mode = .rehearsal → s.log.entries = [] → t = logged.noticeCause .rehearsal)
      ∧ (P.mode = .rehearsal → s.log.entries ≠ [] → t = logged)
      ∧ (∀ q, q ≠ p → t.port q = s.port q)
      ∧ (∀ c, c ≠ x.cls → (t.port p).row c = P.row c)
      ∧ (t.port p).row x.cls
          = { r with queue := rest, cb := max (r.cb - b.length) (-4194304),
                     fb := match x.charge with | .floor => r.fb - b.length | .ceiling => r.fb }
      ∧ (t.port p).awards = P.awards ++
          [{ bid := b, charge := x.charge, awardTime := s.timeBase,
             deadline := s.timeBase + BitVec.ofNat 32 (P.settings.finishDeadline * 10),
             timer := P.settings.finishDeadline * 10, refundable := true }]
      ∧ (∀ l k, (t.port p).pointers.get l k
          = if x.via = .scan l ∧ k = x.charge then x.cls else P.pointers.get l k)
      ∧ (t.port p).run
          = (if P.run = none ∧ 0 < r.contract.runHold ∧ x.via ≠ .run ∧ ¬ (x.via = .scan .prime ∧ x.charge = .floor)
             then some { cls := b.cls, source := b.source, key := b.key, timer := r.contract.runHold } else P.run)
      ∧ (t.port p).counters
          = (let counted : Option Nat := match P.counters.event with
               | .awards => some 1
               | .awardBytes => some b.length
               | .floorAwards => if x.charge = .floor then some 1 else none
               | .ceilingAwards => if x.charge = .ceiling then some 1 else none
               | .runAwards => if x.via = .run then some 1 else none
               | .arrivals | .declines | .lapses => none
             match counted with
             | some n => P.counters.count P.counters.event (some b.cls) n
             | none => P.counters)
      ∧ t.port p = { P with active := (t.port p).active, awards := (t.port p).awards,
                            pointers := (t.port p).pointers, run := (t.port p).run,
                            counters := (t.port p).counters }

/-- A selection opportunity awards until the port may not award or a pass yields nothing: where the port may not award it
changes nothing; a pass that yields a bid leaves its port, makes that award, and the opportunity goes on from there; a
pass that yields nothing leaves its port and ends it. So after it a port that may award has no eligible bid and no open
run. Awards add to the tail of the award list, and no other port changes (R62 to R64, R70). -/
def Obligations.LadderEndsWithNothingEligible : Prop :=
  ∀ (s : State) (p : PortNo),
    let t := s.ladder p
    (∀ P x, s.mayAward p = true → (s.port p).pass = (P, some x) → t = ((s.setPort p P).award p x).ladder p)
      ∧ (∀ P, s.mayAward p = true → (s.port p).pass = (P, none) → t = s.setPort p P)
      ∧ (t.mayAward p = true → (t.port p).pass.2 = none ∧ (t.port p).run = none)
      ∧ (s.mayAward p = false → t = s)
      ∧ (s.port p).awards <+: (t.port p).awards
      ∧ ((s.port p).awards.length < (s.port p).settings.window →
          (t.port p).awards.length ≤ (s.port p).settings.window)
      ∧ (∀ q, q ≠ p → t.port q = s.port q)
      ∧ t.pool = s.pool ∧ t.sources = s.sources ∧ t.groups = s.groups ∧ t.faults = s.faults

/-- The application of a pending commit: every active row takes its staged contract; a row that stays valid keeps its
queue and remainders and has its accounts clamped to the new bursts, a row made valid or kept invalid starts at 0, a row
withdrawn has its queue declined ALLOTMENT_WITHDRAWN in class and queue order, and its awarded records lose their
refundable marks; each declined record returns to the pool, where PAUSE follows the marks (R46, R55), and is a DECLINES
event of its class (R157); the port becomes APPLIED and leaves its commit group, the other ports of which stay in it, and
the end of a group is the cause of the COMMIT notice (R14 to R18). That a row which is invalid holds no records (R49) is
kept by every step: LocksAndTablesAlwaysHold. -/
def Obligations.CommitReplacesTheActiveSet : Prop :=
  ∀ (s : State) (p : PortNo), (s.port p).commitStatus = .pending →
    (∀ c, ((s.port p).row c).contract.valid = false → ((s.port p).row c).queue = []) →
    let P := s.port p
    let t := s.applyCommit p
    let withdrawn := fun c : ClassNo => (P.row c).contract.valid = true ∧ (P.stagedRow c).valid = false
    let declined := ascending.flatMap (fun c => if withdrawn c then (P.row c).queue else [])
    (∀ c, ((t.port p).row c).contract = P.stagedRow c)
      ∧ (∀ c, (P.row c).contract.valid = true → (P.stagedRow c).valid = true →
          ((t.port p).row c).queue = (P.row c).queue
            ∧ ((t.port p).row c).fb = min (P.row c).fb (1024 * (P.stagedRow c).floorBurst)
            ∧ ((t.port p).row c).cb = min (P.row c).cb (1024 * (P.stagedRow c).ceilingBurst)
            ∧ ((t.port p).row c).rf = (P.row c).rf ∧ ((t.port p).row c).rc = (P.row c).rc)
      ∧ (∀ c, ((P.row c).contract.valid = false ∨ (P.stagedRow c).valid = false) →
          ((t.port p).row c).queue = [] ∧ ((t.port p).row c).fb = 0 ∧ ((t.port p).row c).cb = 0
            ∧ ((t.port p).row c).rf = 0 ∧ ((t.port p).row c).rc = 0)
      ∧ t.sw = { s.sw with outq := s.sw.outq ++ if P.mode = .rehearsal then []
                  else declined.map (fun b => .decline p b.tag .allotmentWithdrawn) }
      ∧ t.pool.free = s.pool.free + declined.length
      ∧ (∀ e, t.source e = { s.source e with
          outstanding := (s.source e).outstanding - declined.countP (fun b => b.source == e) })
      ∧ (s.pool.lowMark < s.pool.highMark → t.pool = s.pool.afterReturns declined
          ∧ ∃ u : State, (s.pool.returnsAssert declined → u = s.noticeCause .pool)
              ∧ (¬ s.pool.returnsAssert declined → u = s)
              ∧ t.mg = if portMask p ∈ s.groups then (u.noticeCause .commit).mg else u.mg)
      ∧ (t.port p).awards
          = P.awards.map (fun a => if withdrawn a.bid.cls then { a with refundable := false } else a)
      ∧ ((t.port p).run = if (∃ x, P.run = some x ∧ withdrawn x.cls) then none else P.run)
      ∧ (t.port p).referenceGrade = (if P.grade = .down then P.referenceGrade else P.grade)
      ∧ (∀ q, q ≠ p → t.port q = s.port q)
      ∧ (∀ c, ((t.port p).row c).e
            = (effectiveShares (4 / gradeValue (t.port p).referenceGrade) P.staged.toList (P.stagedRow c)).1
          ∧ ((t.port p).row c).ce
            = (effectiveShares (4 / gradeValue (t.port p).referenceGrade) P.staged.toList (P.stagedRow c)).2)
      ∧ t.port p = { P with active := (t.port p).active, awards := (t.port p).awards, run := (t.port p).run,
                            commitStatus := .applied, referenceGrade := (t.port p).referenceGrade,
                            counters := P.counters.afterDeclines declined }
      ∧ t.groups = (s.groups.map (fun g => g &&& ~~~ portMask p)).filter (fun g => g != 0)
      ∧ (∀ g ∈ t.groups, names g p = false)
      ∧ t = { s with ports := t.ports, sources := t.sources, pool := t.pool, sw := t.sw, mg := t.mg,
                     groups := t.groups }
      ∧ (t.mg.notices.pending.getLsbD NoticeKind.commit.index = true ↔
          s.mg.notices.pending.getLsbD NoticeKind.commit.index = true ∨ portMask p ∈ s.groups)

/-! ## The switch link -/

/-- A byte of the switch joins the tail of the receive buffer, and in RESYNC the hunt then runs unless examination is
deferred; a byte at a full buffer is lost, which in SYNCED empties the buffer, enters RESYNC and reports LINK_RESYNC
(R119, R123, R124). EXAMINATION_RESUME runs the hunt over the bytes that waited, once the queue holds 4,000 frames or
fewer; in SYNCED the frames that waited are taken by their own commands, and while the queue holds more the command
changes nothing (the model's choices, entries 11 and 7). A good SYNC at which the hunt stops waits for its command (the
model's choice, entry 12). The bytes of a frame command that arrive in RESYNC are so hunted
over, or left waiting while examination is deferred, and those that arrive in SYNCED while it is deferred are left
waiting, or lost where the buffer is full, and no frame is taken; nor is one while the head of the buffer is another frame
or still incomplete (R119, R123, R124, R132; that such a command brings its bytes is the model's choice, entry 4). -/
def Obligations.BytesJoinTheReceiveBuffer : Prop :=
  ∀ (s : State), s.pins.rstN = true →
    let withRx := fun rx : List Byte => { s with sw := { s.sw with rx := rx } }
    let lost := { s with sw := { s.sw with rx := [], link := .resync, checkPulse := none } }
    (∀ b : Byte, s.sw.rx.length < 256 → s.sw.link = .synced →
        exec (.swByteReceived b) s = .next (withRx (s.sw.rx ++ [b])).settle)
      ∧ (∀ b : Byte, s.sw.rx.length < 256 → s.sw.link = .resync → 4000 < s.sw.outq.length →
        exec (.swByteReceived b) s = .next (withRx (s.sw.rx ++ [b])).settle)
      ∧ (∀ b : Byte, s.sw.rx.length < 256 → s.sw.link = .resync → s.sw.outq.length ≤ 4000 →
        exec (.swByteReceived b) s = .next (withRx (hunt (s.sw.rx ++ [b]))).settle)
      ∧ (∀ b : Byte, 256 ≤ s.sw.rx.length → s.sw.link = .synced →
        exec (.swByteReceived b) s = .next (lost.reportFault (lost.plainFault .linkResync)).settle)
      ∧ (∀ b : Byte, 256 ≤ s.sw.rx.length → s.sw.link = .resync →
        exec (.swByteReceived b) s = .next s.settle)
      ∧ (s.sw.link = .resync → s.sw.outq.length ≤ 4000 →
        exec .examinationResume s = .next (withRx (hunt s.sw.rx)).settle)
      ∧ (s.sw.link = .synced ∨ 4000 < s.sw.outq.length → exec .examinationResume s = .next s.settle)
      ∧ (∀ c bytes, s.sw.link = .resync →
          carriesBytes c bytes ∨ (c = .syncResyncEnd ∧ bytes = syncBytes ∧ 4000 < s.sw.outq.length) →
          let joined := fun (rx : List Byte) (b : Byte) =>
            if 256 ≤ rx.length then rx else if 4000 < s.sw.outq.length then rx ++ [b] else hunt (rx ++ [b])
          exec c s = .next (withRx (bytes.foldl joined s.sw.rx)).settle)
      ∧ (∀ c bytes, s.sw.link = .synced → 4000 < s.sw.outq.length →
          carriesBytes c bytes ∨ (c = .syncInSynced ∧ bytes = syncBytes) →
          let room := 256 - s.sw.rx.length
          let resynced := { lost with sw := { lost.sw with rx := (bytes.drop (room + 1)).take 256 } }
          (bytes.length ≤ room → exec c s = .next (withRx (s.sw.rx ++ bytes)).settle)
            ∧ (room < bytes.length →
                exec c s = .next (resynced.reportFault (resynced.plainFault .linkResync)).settle))
      ∧ (∀ f : SwIn, s.sw.link = .synced → s.sw.outq.length ≤ 4000 → s.sw.rx.length + f.bytes.length ≤ 256 →
          (∀ n, examine s.sw.rx ≠ .good f n) → (∀ n, examine (s.sw.rx ++ f.bytes) ≠ .good f n) →
          exec (frameCommand f) s = .next (withRx (s.sw.rx ++ f.bytes)).settle)

/-- In SYNCED, a frame at the head of the buffer that fails its CRC-8 is discarded whole: the unit stays SYNCED, a MINOR
LINK_CHECK is reported, and the check pulse starts or restarts with 2 µs (R121, R126). A frame that fails test 1, 2 or 4
loses its first byte: the unit enters RESYNC, a running pulse ends, a MAJOR LINK_RESYNC is reported, and the hunt runs over
the bytes that remain (R122, R124); that a good SYNC at which it stops waits for SYNC_RESYNC_END is the model's choice
(entry 12). The bytes stand in the buffer, or, with the buffer empty, they arrive with the command; that a failing frame
which stands there is discarded whatever bytes the command names is the model's choice too (entry 4). Which bytes fail
which test: SwitchFramesReadBack. -/
def Obligations.FailingFramesAreDiscarded : Prop :=
  ∀ (s : State) (bytes : List Byte), s.pins.rstN = true → s.sw.link = .synced → s.sw.outq.length ≤ 4000 →
    bytes.length ≤ 256 →
    let rx := if s.sw.rx = [] then bytes else s.sw.rx
    (∀ n, examine rx = .damaged n →
        let t := { s with sw := { s.sw with rx := rx.drop n } }.reportFault (s.plainFault .linkCheck)
        exec (.damagedFrame bytes) s = .next { t with sw := { t.sw with checkPulse := some 2 } }.settle)
      ∧ (examine rx = .lost →
        let t := { s with sw := { s.sw with rx := hunt (rx.drop 1), link := .resync, checkPulse := none } }
        exec (.lossOfFraming bytes) s = .next (t.reportFault (s.plainFault .linkResync)).settle)

/-- In RESYNC a good SYNC, standing where the hunt stops or arriving with the command behind an empty buffer, ends RESYNC:
its three bytes leave the buffer, the unit is SYNCED, and an outbound SYNC joins the tail of the queue (R124; that it waits
there for the command or comes with it is the model's choice, entries 4 and 12). In SYNCED a SYNC leaves the buffer and
changes nothing else (R125). A SYNC_RESYNC_END in SYNCED and a SYNC_IN_SYNCED in RESYNC are
commands whose event cannot occur (entry 7). The hunt itself discards byte positions from the head, none of which begins a
good SYNC or may still begin one, and stops at a good SYNC, or where not enough bytes have arrived to decide (R124). -/
def Obligations.SyncEndsResync : Prop :=
  (∀ l : List Byte, ∃ k, k ≤ l.length ∧ hunt l = l.drop k
    ∧ (∀ j < k, ¬ syncBytes <+: l.drop j ∧ ¬ l.drop j <+: syncBytes)
    ∧ (syncBytes <+: hunt l ∨ hunt l <+: syncBytes))
  ∧ ∀ s : State, s.pins.rstN = true →
    (s.sw.link = .resync → s.sw.outq.length ≤ 4000 → (s.sw.rx = [] ∨ syncBytes <+: hunt s.sw.rx) →
        exec .syncResyncEnd s = .next { s with sw := { s.sw with
          rx := (hunt s.sw.rx).drop 3, link := .synced, outq := s.sw.outq ++ [SwOut.sync] } }.settle)
      ∧ (s.frameNext .sync → exec .syncInSynced s = .next (s.pastFrame .sync).settle)
      ∧ (s.sw.link = .synced → exec .syncResyncEnd s = .next s.settle)
      ∧ (s.sw.link = .resync → exec .syncInSynced s = .next s.settle)

/-- The expiry of the check pulse leaves it NONE, which releases ALERT in SYNCED (R126); that the time left of it passes
first is the model's choice (entry 2). The end of a frame's transmission takes the frame at the head from the outbound
queue, and the next begins (R127); that it is a command is the model's choice (entry 3), and so is that the two commands
change nothing where no pulse runs or no frame is in transmission (entry 7). -/
def Obligations.PulseExpiresAndFramesLeave : Prop :=
  ∀ s : State, s.pins.rstN = true →
    (∀ n, s.sw.checkPulse = some n → ∃ t : State, exec .checkPulseExpiry s = .next t
        ∧ (let u := s.elapse n
           t = { u with sw := { u.sw with checkPulse := none } }.settle)
        ∧ (s.sw.link = .synced → t.pins.alertLow = false))
      ∧ (s.sw.checkPulse = none → exec .checkPulseExpiry s = .next s.settle)
      ∧ (s.sw.sending = true → ∃ t : State, exec .swOutboundFrameSent s = .next t
        ∧ t = { s with sw := { s.sw with outq := s.sw.outq.tail } }.settle
        ∧ t.sw.sending = decide (2 ≤ s.sw.outq.length))
      ∧ (s.sw.sending = false → exec .swOutboundFrameSent s = .next s.settle)

/-! ## Frames of the switch -/

/-- The lookup examines the valid entries in ascending order: the first that agrees with the address in every bit whose
mask bit is 0 is the entry of the bid; where none agrees the lookup fails (R40). -/
def Obligations.LookupFindsTheFirstMatch : Prop :=
  ∀ (s : State) (a : Address),
    let agrees := fun e : EntryNo => (s.source e).valid = true
      ∧ ∀ i, i < 24 → (s.source e).matchMask.getLsbD i = false →
          a.getLsbD i = (s.source e).matchBase.getLsbD i
    (∀ e, agrees e → (∀ d, d < e → ¬ agrees d) → s.lookup a = some e)
      ∧ ((∀ e, ¬ agrees e) → s.lookup a = none)
      ∧ (∀ e, (s.source e).valid = true → (s.source e).matchMask = 0xFFFFFF → agrees e)
      ∧ (∀ e, (s.source e).valid = true → (s.source e).matchMask = 0 → (agrees e ↔ a = (s.source e).matchBase))

/-- A BID is checked in the order of Table 3.4. The first check that fails declines it: a DECLINE with the cause, the
fault that the table names, the ARRIVALS and DECLINES events, and nothing else. A bid that passes takes a record to the
tail of its row queue, and the port has a selection opportunity (R51 to R53). -/
def Obligations.BidIsAcceptedOrDeclined : Prop :=
  ∀ (b : BidBody) (s : State), s.frameNext (.bid b) →
    let s0 := s.pastFrame (.bid b)
    let P := s.port b.port
    let counted := fun (u : State) (k : Option ClassNo) =>
      (u.count b.port .arrivals k 1).count b.port .declines k 1
    let declines := fun (cause : Cause) (k : Option ClassNo) =>
      exec (.bid b) s = .next ((counted s0 k).pushSwitch (.decline b.port b.tag cause)).settle
    let faults := fun (cause : Cause) (kind : FaultKind) (k : Option ClassNo) (e : Option EntryNo) =>
      exec (.bid b) s = .next ((counted (s0.reportFault
        { kind := kind, time := s.timeBase, port := some b.port, cls := k, source := e, tag := some b.tag,
          address := some b.address }) k).pushSwitch (.decline b.port b.tag cause)).settle
    (P.mode = .off → declines .portOff none)
      ∧ (P.mode = .rehearsal → declines .portRehearsal none)
      ∧ (P.mode = .live ∨ P.mode = .frozen →
          (P.stranded = true → declines .portDown none)
          ∧ (P.stranded = false → s.lookup b.address = none → faults .unknownSource .unknownSource none none)
          ∧ (P.stranded = false → ∀ e, s.lookup b.address = some e →
              let x := s.source e
              let r := P.row x.cls
              let used := ∃ a ∈ P.records, a.tag = b.tag
              (x.admission = .muted → declines .sourceMuted (some x.cls))
              ∧ (x.admission = .admitted → r.contract.valid = false → declines .noAllotment (some x.cls))
              ∧ (x.admission = .admitted → r.contract.valid = true →
                  (used → faults .duplicateTag .duplicateTag (some x.cls) (some e))
                  ∧ (¬ used → x.limit ≤ x.outstanding → declines .sourceLimit (some x.cls))
                  ∧ (¬ used → x.outstanding < x.limit →
                      (r.contract.queueLimit ≤ r.queue.length → declines .queueFull (some x.cls))
                      ∧ (r.queue.length < r.contract.queueLimit →
                          (s.pool.free = 0 → faults .poolFull .poolExhausted (some x.cls) (some e))
                          ∧ (0 < s.pool.free →
                              let record : BidRecord :=
                                { tag := b.tag, source := e, cls := x.cls, length := b.codedLength.toNat + 1,
                                  key := b.key, acceptTime := s.timeBase }
                              let s1 := (s0.mapPort b.port (fun P =>
                                P.setRow x.cls { r with queue := r.queue ++ [record] })).count b.port .arrivals
                                  (some x.cls) 1
                              let s2 := s1.setSource e { x with outstanding := x.outstanding + 1 }
                              let s3 := { s2 with pool := { s.pool with free := s.pool.free - 1 } }.evaluatePause
                              exec (.bid b) s = .next (s3.ladder b.port).settle))))))

/-- A WITHDRAW is answered once. A queued record is removed from its place in its queue and returned: REMOVED. An awarded
record stands: LATE. An absent tag, or any tag on a port in REHEARSAL, is UNKNOWN and changes nothing (R58). -/
def Obligations.WithdrawIsAnswered : Prop :=
  ∀ (p : PortNo) (tag : Tag) (s : State), s.frameNext (.withdraw p tag) → s.TagsUnique →
    let s0 := s.pastFrame (.withdraw p tag)
    let P := s.port p
    let answer := fun (u : State) (o : WithdrawOutcome) =>
      exec (.withdraw p tag) s = .next (u.pushSwitch (.withdrawAnswer p tag o)).settle
    (P.mode = .rehearsal → answer s0 .unknown)
      ∧ (P.mode ≠ .rehearsal →
          (∀ (c : ClassNo) (before after : List BidRecord) (b : BidRecord),
              (P.row c).queue = before ++ b :: after → b.tag = tag →
              answer ((s0.setPort p (P.setRow c { P.row c with queue := before ++ after })).returnRecord b) .removed)
          ∧ (∀ a ∈ P.awards, a.bid.tag = tag → answer s0 .late)
          ∧ ((∀ b ∈ P.records, b.tag ≠ tag) → answer s0 .unknown))

/-- A FINISH of an awarded record on a port not in REHEARSAL removes it from the award list, refunds length less moved by
its charge kind if it is refundable, clamped at the bursts, returns it to the pool and gives a selection opportunity;
bytes moved above the length count as the length and report OVERLENGTH_FINISH (R36, R86, R87). Any other FINISH is stray:
it reports STRAY_FINISH, with the class and source entry of a queued record, and changes nothing else (R85, R88); on a port
in REHEARSAL it reports neither, queued or not, which is the model's choice (entry 27). -/
def Obligations.FinishEndsARecordOrIsStray : Prop :=
  ∀ (f : FinishBody) (s : State), s.frameNext (.finish f) → s.TagsUnique →
    let s0 := s.pastFrame (.finish f)
    let P := s.port f.port
    let stray := fun b : Option BidRecord =>
      exec (.finish f) s = .next (s0.reportFault
        { kind := .strayFinish, time := s.timeBase, port := some f.port, cls := b.map (fun b => b.cls),
          source := b.map (fun b => b.source), tag := some f.tag, address := none }).settle
    (P.mode = .rehearsal → stray none)
      ∧ (P.mode ≠ .rehearsal →
          (∀ (before after : List AwardRecord) (a : AwardRecord),
              P.awards = before ++ a :: after → a.bid.tag = f.tag →
              let moved := min f.moved.toNat a.bid.length
              let due := if a.refundable then a.bid.length - moved else 0
              let r := P.row a.bid.cls
              let cb := min (r.cb + due) (burstBytes r.contract.ceilingBurst)
              let refunded : Row := match a.charge with
                | .floor => { r with fb := min (r.fb + due) (burstBytes r.contract.floorBurst), cb := cb }
                | .ceiling => { r with cb := cb }
              let Q := { P with awards := before ++ after }
              let s1 := if a.bid.length < f.moved.toNat then
                  s0.reportFault { kind := .overlengthFinish, time := s.timeBase, port := some f.port,
                                   cls := some a.bid.cls, source := some a.bid.source, tag := some f.tag,
                                   address := none }
                else s0
              let s2 := s1.setPort f.port (if due = 0 then Q else Q.setRow a.bid.cls refunded)
              exec (.finish f) s = .next ((s2.returnRecord a.bid).ladder f.port).settle)
          ∧ (∀ c, ∀ b ∈ (P.row c).queue, b.tag = f.tag → stray (some b))
          ∧ ((∀ b ∈ P.records, b.tag ≠ f.tag) → stray none))

/-- A GRADE stores the grade and adds its port to the GRADE notice. A grade above DOWN recomputes the effective shares,
stops the hold-down timer and clears the stranded flag, and a rise from DOWN gives a selection opportunity. A fall to DOWN
starts the hold-down timer at the hold-down setting times 100 µs, or strands the port at once where the setting is 0
(R108 to R110). -/
def Obligations.GradeFrameActs : Prop :=
  ∀ (p : PortNo) (g : Grade) (s : State), s.frameNext (.grade p g) →
    let P := s.port p
    let m := s.mg.notices
    let s0 := s.pastFrame (.grade p g)
    let noticed := { s0 with mg := { s.mg with notices := { m with gradePorts := m.gradePorts ||| portMask p } } }
    let stored := fun Q : Port => (noticed.setPort p { Q with grade := g }).noticeCause .grade
    (g ≠ .down → P.grade ≠ .down →
        exec (.grade p g) s = .next
          (stored { P.recomputeShares g with holdDownTimer := none, stranded := false }).settle)
      ∧ (g ≠ .down → P.grade = .down →
        exec (.grade p g) s = .next
          ((stored { P.recomputeShares g with holdDownTimer := none, stranded := false }).ladder p).settle)
      ∧ (g = .down → P.grade = .down → exec (.grade p g) s = .next (stored P).settle)
      ∧ (g = .down → P.grade ≠ .down → P.settings.holdDown ≠ 0 →
        exec (.grade p g) s = .next
          (stored { P with holdDownTimer := some (P.settings.holdDown * 100) }).settle)
      ∧ (g = .down → P.grade ≠ .down → P.settings.holdDown = 0 →
        exec (.grade p g) s = .next ((stored P).strand p).settle)

/-- A FORGET drops every queued and awarded record of every port not in REHEARSAL and closes its run; each record returns
to the pool, no other frame, fault, refund or counter event arises, the ports in REHEARSAL are as they were, and
FORGOTTEN joins the outbound queue (R94 to R97). -/
def Obligations.ForgetDropsTheRecords : Prop :=
  ∀ s : State, s.frameNext .forget →
    ∃ u : State, exec .forget s = .next u.settle
      ∧ u.sw = { s.sw with rx := s.sw.rx.drop 3, outq := s.sw.outq ++ [.forgotten] }
      ∧ (∀ p, (s.port p).mode = .rehearsal → u.port p = s.port p)
      ∧ (∀ p, (s.port p).mode ≠ .rehearsal →
          (∀ c, (u.port p).row c = { (s.port p).row c with queue := [] })
            ∧ u.port p = { s.port p with active := (u.port p).active, awards := [], run := none })
      ∧ (let dropped := (s.ports.toList.filter (fun P => P.mode != .rehearsal)).flatMap Port.records
         u.pool.free = s.pool.free + dropped.length
           ∧ (∀ e, u.source e = { s.source e with
                outstanding := (s.source e).outstanding - dropped.countP (fun b => b.source == e) })
           ∧ (dropped = [] → u.pool = s.pool ∧ u.mg = s.mg)
           ∧ (s.pool.pause = true ∨ s.pool.lowMark < s.pool.free → s.pool.lowMark < s.pool.highMark →
                dropped ≠ [] →
                u.mg = s.mg ∧ u.pool.pause = (s.pool.pause && decide (u.pool.free < s.pool.highMark))))
      ∧ u.pool.lowMark = s.pool.lowMark ∧ u.pool.highMark = s.pool.highMark
      ∧ u.pending = s.pending ∧ u.pins = s.pins ∧ u.timeBase = s.timeBase ∧ u.groups = s.groups
      ∧ u.faults = s.faults ∧ u.log = s.log

/-! ## The timers of a port -/

/-- At the accrual expiry of a port, once the time left of the period has passed (entry 2): a pending commit is applied,
the rows accrue with the period just ended, the timer reloads from the stored interval and prescale, and the port has a
selection opportunity, in this order (R26). -/
def Obligations.AccrualExpiryInOrder : Prop :=
  ∀ (p : PortNo) (s : State), s.pins.rstN = true →
    let s1 := s.elapse (s.port p).accrualTimer
    let s2 := if (s.port p).commitStatus = .pending then s1.applyCommit p else s1
    let Q := (s2.port p).accrue
    let T := (s.port p).settings.interval * (match (s.port p).settings.prescale with | .us1 => 1 | .us16 => 16)
    exec (.accrualTimerExpiry p) s
      = .next ((s2.setPort p { Q with loadedPeriod := T, accrualTimer := T }).ladder p).settle

/-- When a run timer expires, the run closes: the run record becomes CLOSED, the award list keeps its records, and there
is no award and no selection opportunity (R77). Two clauses are the model's choices: a timer with time left first lets it
pass (entry 2), and the command changes nothing where the run is CLOSED and has no timer (entry 7). -/
def Obligations.RunTimerExpiryClosesTheRun : Prop :=
  ∀ (p : PortNo) (s : State), s.pins.rstN = true →
    (∀ x, (s.port p).run = some x → ∃ u : State, exec (.runTimerExpiry p) s = .next u.settle
        ∧ (x.timer = 0 → u = s.setPort p { s.port p with run := none })
        ∧ u = (let v := s.elapse x.timer; v.setPort p { v.port p with run := none })
        ∧ (u.port p).awards.map (fun a => (a.bid, a.charge, a.awardTime, a.deadline, a.refundable))
            = (s.port p).awards.map (fun a => (a.bid, a.charge, a.awardTime, a.deadline, a.refundable))
        ∧ u.sw.outq = s.sw.outq)
      ∧ ((s.port p).run = none → exec (.runTimerExpiry p) s = .next s.settle)

/-- When the deadline of an awarded record expires the record lapses: it leaves the award list without a refund and
returns to the pool; a LAPSE joins the outbound queue, or, in REHEARSAL, a LAPSE entry takes the record's reserved place,
and is a cause of the REHEARSAL notice where the log held none; FINISH_LAPSE is reported, the LAPSES event is counted, and
the port has a selection opportunity (R90, R165). The time left first passes (entry 2); without such a record no timer
runs (entry 7). -/
def Obligations.DeadlineExpiryLapsesTheRecord : Prop :=
  ∀ (p : PortNo) (tag : Tag) (s : State), s.pins.rstN = true → s.TagsUnique →
    (∀ (before after : List AwardRecord) (a : AwardRecord),
        (s.port p).awards = before ++ a :: after → a.bid.tag = tag →
        let s1 := s.elapse a.timer
        let P := s1.port p
        let aged := fun x : AwardRecord => { x with timer := x.timer - a.timer }
        let s2 := (s1.setPort p { P with awards := (before ++ after).map aged }).returnRecord a.bid
        let entry : LogEntry := { kind := .lapse, port := p, tag := tag, cls := a.bid.cls, charge := a.charge,
                                  length := a.bid.length, time := s1.timeBase }
        let logged := { s2 with log := { entries := s.log.entries ++ [entry], reserved := s.log.reserved - 1 } }
        let s3 := if (s.port p).mode = .rehearsal then
            (if s.log.entries = [] then logged.noticeCause .rehearsal else logged)
          else s2.pushSwitch (.lapse p tag)
        let fault : FaultReport := { kind := .finishLapse, time := s1.timeBase, port := some p, cls := some a.bid.cls,
                                     source := some a.bid.source, tag := some tag, address := none }
        exec (.deadlineExpiry p tag) s
          = .next (((s3.reportFault fault).count p .lapses (some a.bid.cls) 1).ladder p).settle)
      ∧ ((∀ a ∈ (s.port p).awards, a.bid.tag ≠ tag) → exec (.deadlineExpiry p tag) s = .next s.settle)

/-- When the hold-down timer expires it stops and the port is stranded: the flag is set, the queues are declined
PORT_DOWN, the run closes, PORT_STRANDED is reported, and the port joins the STRAND notice, in this order (R111, R112). The
time left first passes (entry 2); a STOPPED timer does not expire (entry 7). -/
def Obligations.HoldDownExpiryStrandsThePort : Prop :=
  ∀ (p : PortNo) (s : State), s.pins.rstN = true →
    (∀ n, (s.port p).holdDownTimer = some n →
        let s1 := s.elapse n
        let s2 := (s1.setPort p { s1.port p with holdDownTimer := none, stranded := true }).declineQueues p .portDown
        let s3 := s2.setPort p { s2.port p with run := none }
        let s4 := s3.reportFault { kind := .portStranded, time := s1.timeBase, port := some p, cls := none,
                                   source := none, tag := none, address := none }
        let m := s4.mg.notices
        let s5 := { s4 with mg := { s4.mg with notices := { m with strandPorts := m.strandPorts ||| portMask p } } }
        exec (.holdDownExpiry p) s = .next (s5.noticeCause .strand).settle)
      ∧ ((s.port p).holdDownTimer = none → exec (.holdDownExpiry p) s = .next s.settle)

/-! ## The management line -/

/-- A character begins a frame at a start marker, is discarded otherwise while none is in assembly, and is else taken into
the frame in assembly, whose gap time starts again at 32 × divider µs (R135). A whole frame joins the tail of the inbound
buffer, or, with four frames there, is dropped and sets the dropped-request flag (R136); REQUEST_FRAME_COMPLETE says so of
the frame in assembly or of one whose characters arrive with the command, and without it a complete frame joins before
the next character is seen (the model's choice, entry 6). A frame whose gap time ends is complete as an abandoned one
(R135; that the time left of the gap passes first is the model's choice, entry 2); FRAME_ABANDONED without an incomplete
frame in assembly changes nothing (the model's choice, entry 7). -/
def Obligations.CharactersFormFrames : Prop :=
  ∀ s : State, s.pins.rstN = true →
    let assembling := fun (u : State) (x : Option Assembly) => { u with mg := { u.mg with assembly := x } }
    let gap := 32 * s.mg.lineDivider.toNat
    let joins := fun (u : State) (f : RequestFrame) =>
      if u.mg.inbound.length < 4 then { u with mg := { u.mg with inbound := u.mg.inbound ++ [f] } }
      else { u with mg := { u.mg with dropped := true } }
    (∀ c : Byte, s.mg.assembly = none → c ≠ 0x7E → exec (.mgCharacterReceived c) s = .next s.settle)
      ∧ (s.mg.assembly = none → exec (.mgCharacterReceived 0x7E) s
          = .next (assembling s (some { chars := [], gap := gap })).settle)
      ∧ (∀ (c : Byte) (a : Assembly), s.mg.assembly = some a → isComplete a.chars = false →
          exec (.mgCharacterReceived c) s
            = .next (assembling s (some { chars := a.chars ++ [c], gap := gap })).settle)
      ∧ (∀ (c : Byte) (a : Assembly), s.mg.assembly = some a → isComplete a.chars = true →
          exec (.mgCharacterReceived c) s
            = .next (assembling (joins (assembling s none) { chars := a.chars, abandoned := false })
                (if c = 0x7E then some { chars := [], gap := gap } else none)).settle)
      ∧ (∀ a : Assembly, s.mg.assembly = some a → isComplete a.chars = true →
          exec (.requestFrameComplete a.chars) s
            = .next (joins (assembling s none) { chars := a.chars, abandoned := false }).settle)
      ∧ (∀ chars : List Byte, s.mg.assembly = none → isComplete chars = true → isComplete chars.dropLast = false →
          exec (.requestFrameComplete chars) s = .next (joins s { chars := chars, abandoned := false }).settle)
      ∧ (∀ a : Assembly, s.mg.assembly = some a → isComplete a.chars = false →
          exec .frameAbandoned s
            = .next (joins (assembling (s.elapse a.gap) none) { chars := a.chars, abandoned := true }).settle)
      ∧ ((∀ a, s.mg.assembly = some a → isComplete a.chars = true) → exec .frameAbandoned s = .next s.settle)

/-- A served frame that was abandoned, has a wrong CRC-16 or a wrong body length is answered BAD_FRAME, one of a kind that
is no request kind UNKNOWN_KIND; the reply carries the kind as received, or 0, and an empty body, and nothing else happens
(R137, R138). Which characters make such a frame: RequestFramesReadBack. While 15 replies are queued or a RESET awaits its
warm reset, and behind another frame, the frame of a request command, and so one of these two, joins the inbound buffer,
or is dropped where it holds four, and no block acts (R136, R137; that the command brings its frame, and that these two
take any oldest frame that fails so, is the model's choice, entry 5). A complete frame in assembly joins first, and an
incomplete one is passed and stays as it is (the model's choices, entries 6 and 28). -/
def Obligations.FaultyFramesAreAnsweredAndRequestsWait : Prop :=
  ∀ s : State,
    let joins := fun (u : State) (f : RequestFrame) =>
      if u.mg.inbound.length < 4 then { u with mg := { u.mg with inbound := u.mg.inbound ++ [f] } }
      else { u with mg := { u.mg with dropped := true } }
    let serves := fun (c : Instr) (v : Verdict) (f : RequestFrame) =>
      (requestParts c ≠ none ∧ v = .request c ∧ f = requestFrame c) ∨ (c = .badFrameRequest f ∧ v = .badFrame)
        ∨ (∃ chars, c = .unknownKindRequest chars ∧ v = .unknownKind ∧ f = { chars := chars, abandoned := false })
    (∀ c v f, serves c v f → s.pins.rstN = true → (∀ a, s.mg.assembly = some a → isComplete a.chars = false) →
        s.requestWaits v f → exec c s = .next (joins s f).settle)
      ∧ (∀ c v f a, serves c v f → s.pins.rstN = true → s.mg.assembly = some a → isComplete a.chars = true →
          exec c s = exec c
            (joins { s with mg := { s.mg with assembly := none } } { chars := a.chars, abandoned := false }))
      ∧ (∀ f : RequestFrame, verdict f = .badFrame → s.requestNext .badFrame →
        exec (.badFrameRequest f) s = .next
          (s.taken.queueReply (kindOf (s.mg.inbound.head?.getD f)) .badFrame [] .nothing).settle)
      ∧ (∀ chars : List Byte, verdict { chars := chars, abandoned := false } = .unknownKind →
        s.requestNext .unknownKind →
        exec (.unknownKindRequest chars) s = .next (s.taken.queueReply
          (kindOf (s.mg.inbound.head?.getD { chars := chars, abandoned := false })) .unknownKind [] .nothing).settle)

/-- The frame in transmission has been sent: it leaves the queue, and the next begins (R139). The end of a LINE-RATE reply
puts the divider that it carries in force (R134; with two LINE-RATE requests in flight the choice of that divider is the
model's, entry 26); after the end of a RESET reply no frame begins before the warm reset (R147). The model's choices: the
end of a transmission is a command (entry 3); the end of a RESET reply leaves the unit waiting for the command WARM_RESET
(entry 10); with none in transmission the command changes nothing (entry 7). -/
def Obligations.ManagementFrameSent : Prop :=
  ∀ s : State, s.pins.rstN = true →
    let sent := fun rest : List MgOut => { s.mg with outq := rest, sending := false }
    (s.mg.sending = true →
        (∀ rest n, s.mg.outq = .notice n :: rest →
            exec .mgFrameSent s = .next { s with mg := sent rest }.settle)
        ∧ (∀ rest r, s.mg.outq = .reply r :: rest → r.onSent = .nothing →
            exec .mgFrameSent s = .next { s with mg := sent rest }.settle)
        ∧ (∀ rest r d, s.mg.outq = .reply r :: rest → r.onSent = .takeDivider d →
            exec .mgFrameSent s = .next { s with mg := { sent rest with lineDivider := d } }.settle)
        ∧ (∀ rest r, s.mg.outq = .reply r :: rest → r.onSent = .warmReset →
            ∃ t : State, exec .mgFrameSent s = .next t
              ∧ t = { s with mg := { sent rest with resetStage := .replySent } }.settle
              ∧ t.mg.sending = false ∧ t.mg.outq = rest))
      ∧ (s.mg.sending = false → exec .mgFrameSent s = .next s.settle)

/-! ## Requests -/

/-- IDENTIFY, STATUS, PORT-READ, SOURCE-READ, CONTRACT-READ, QUEUE-READ, POOL-READ and FAULT-READ put their reply at the
tail of the outbound queue and change nothing else (R10, R25, R43, R50, R57, R140, R141, R154). The revision number is a
constant of the part without a value (entry 15). That a CONTRACT-READ with both a port or class above 15 and an undefined
set value is NOT_ALLOWED is the model's choice (entry 29): R10 states no order. -/
def Obligations.ReadsAnswerAndChangeNothing : Prop :=
  ∀ s : State,
    let answers := fun (i : Instr) (kind : Byte) (r : ReplyResult) (body : List Byte) =>
      s.requestNext (.request i) → exec i s = .next (s.taken.queueReply kind r body .nothing).settle
    answers .identify 0x01 .ok
        ([0x3C, 0xA6, byte1 (Config.revisionLessOne.val + 1), 16, 16, 64] ++ nat2 2048 ++ [64, 8])
      ∧ answers .status 0x03 .ok (noticeByte s.mg.notices.pending :: (bytes2 s.mg.notices.gradePorts
          ++ bytes2 s.mg.notices.strandPorts ++ [noticeByte s.mg.enables,
            flag (decide (s.mg.notices.pending &&& s.mg.enables ≠ 0)), s.sw.link.code, flag s.faults.held.isSome]
          ++ bytes4 s.timeBase))
      ∧ answers .poolRead 0x41 .ok (nat2 s.pool.free
          ++ nat2 (s.ports.toList.map (fun P => P.queued.length)).sum
          ++ nat2 (s.ports.toList.map (fun P => P.awards.length)).sum
          ++ nat2 s.pool.lowMark ++ nat2 s.pool.highMark ++ [flag s.pool.pause])
      ∧ (s.RecordsAccounted → s.pool.free + (s.ports.toList.map (fun P => P.queued.length)).sum
          + (s.ports.toList.map (fun P => P.awards.length)).sum = 2048)
      ∧ answers .faultRead 0x50 .ok s.faults.bytes
      ∧ (∀ pb : Byte, 16 ≤ pb.toNat → answers (.portRead pb) 0x11 .notAllowed (zeros 15))
      ∧ (∀ (pb : Byte) (p : PortNo), pb.toNat = p.val →
          answers (.portRead pb) 0x11 .ok (pb :: (s.port p).settings.bytes ++ nat2 (s.port p).loadedPeriod
            ++ [(s.port p).mode.code, gradeByte (s.port p).grade, flag (s.port p).stranded]))
      ∧ (∀ eb : Byte, 64 ≤ eb.toNat → answers (.sourceRead eb) 0x21 .notAllowed (zeros 12))
      ∧ (∀ (eb : Byte) (e : EntryNo), eb.toNat = e.val →
          answers (.sourceRead eb) 0x21 .ok (eb :: (s.source e).bytes))
      ∧ (∀ pb cb : Byte, 16 ≤ pb.toNat ∨ 16 ≤ cb.toNat →
          answers (.queueRead pb cb) 0x35 .notAllowed (zeros 4)
            ∧ ∀ set, answers (.contractRead pb cb set) 0x31 .notAllowed (zeros 39))
      ∧ (∀ (pb cb : Byte) (p : PortNo) (c : ClassNo), pb.toNat = p.val → cb.toNat = c.val →
          let r := (s.port p).row c
          let lock := (s.port p).lockCell c
          let tail := flag lock.locked :: (nat2 lock.floor ++ [flag (decide ((s.port p).commitStatus = .pending))])
          answers (.queueRead pb cb) 0x35 .ok ([pb, cb, byte1 r.queue.length, byte1 (min 32 r.queue.length)]
              ++ (r.queue.take 32).flatMap BidRecord.bytes)
            ∧ answers (.contractRead pb cb 0) 0x31 .ok
                ([pb, cb, 0] ++ r.contract.bytes ++ (int4 r.fb ++ int4 r.cb ++ nat2 r.rf ++ nat2 r.rc ++ nat2 r.e
                  ++ nat2 r.ce ++ [byte1 r.queue.length]) ++ tail)
            ∧ answers (.contractRead pb cb 1) 0x31 .ok
                ([pb, cb, 1] ++ ((s.port p).stagedRow c).bytes ++ zeros 17 ++ tail)
            ∧ ∀ set : Byte, set ≠ 0 → set ≠ 1 → answers (.contractRead pb cb set) 0x31 .inconsistent (zeros 39))

/-- LINE-RATE stores its divider, 0 and 1 as 2 with CLAMPED, and the divider takes effect at the end of the reply (R134).
NOTICE-ENABLE replaces the enables and calls for a NOTICE behind the reply if a newly enabled kind is pending (R144).
NOTICE-ACK takes the kinds from the pending set, GRADE and STRAND with their port sets (R145). RESET is answered OK, and
serving then waits for the warm reset (R147). -/
def Obligations.LinkRequestsAct : Prop :=
  ∀ s : State,
    let u := s.taken
    let withMg := fun m : MgUnit => { s with mg := m }
    (∀ d : BitVec 16, s.requestNext (.request (.lineRate d)) →
        let stored := if d.toNat < 2 then 2 else d
        exec (.lineRate d) s = .next ((withMg { u.mg with divider := stored }).queueReply 0x02
          (if d.toNat < 2 then .clamped else .ok) (bytes2 stored) (.takeDivider stored)).settle)
      ∧ (∀ k : Byte, s.requestNext (.request (.noticeEnable k)) →
        let en : NoticeSet := k.extractLsb' 0 6
        let v := (withMg { u.mg with enables := en }).queueReply 0x04 .ok
          [noticeByte en, noticeByte s.mg.notices.pending] .nothing
        let called := ∃ j < 6, en.getLsbD j = true ∧ s.mg.enables.getLsbD j = false
          ∧ s.mg.notices.pending.getLsbD j = true
        (called → exec (.noticeEnable k) s = .next v.callNotice.settle)
          ∧ (¬ called → exec (.noticeEnable k) s = .next v.settle))
      ∧ (∀ k : Byte, s.requestNext (.request (.noticeAck k)) →
        let n : NoticeRecord :=
          { pending := s.mg.notices.pending &&& ~~~ k.extractLsb' 0 6
            gradePorts := if k.getLsbD 2 then 0 else s.mg.notices.gradePorts
            strandPorts := if k.getLsbD 4 then 0 else s.mg.notices.strandPorts }
        exec (.noticeAck k) s = .next ((withMg { u.mg with notices := n }).queueReply 0x05 .ok
          (noticeByte n.pending :: (bytes2 n.gradePorts ++ bytes2 n.strandPorts)) .nothing).settle)
      ∧ (s.requestNext (.request .reset) →
        ∃ t : State, exec .reset s = .next t
          ∧ t = ((withMg { u.mg with resetStage := .awaiting }).queueReply 0x06 .ok [] .warmReset).settle
          ∧ t.mg.mayServe = false)

/-- A warm reset, taken when the RESET reply has been sent: all bid state is dropped, every record is free, PAUSE is
negated; contracts, shares, locks, settings, modes, grades, stranding, timers of periods and hold-downs, the source map,
the marks, the enables, the divider, the link state and the receive buffer are kept; staged sets equal active sets,
pending commits, the notice state, the fault record and the log are emptied; of the frames to the switch the one in
transmission and the SYNC frames are kept, and FORGOTTEN follows (R3, R39, R48, R61, R83, R100, R118, R131, R147, R150, R156,
R160). That it is a command of its own, after the end of the reply, is the model's choice (entry 10). -/
def Obligations.WarmResetDropsBidState : Prop :=
  ∀ s : State, s.pins.rstN = true → s.mg.resetStage = .replySent →
    ∃ u : State, exec .warmReset s = .next u.settle
      ∧ (∀ p, (∀ c, (u.port p).row c = { (s.port p).row c with fb := 0, cb := 0, rf := 0, rc := 0, queue := [] }
            ∧ (u.port p).stagedRow c = ((s.port p).row c).contract)
          ∧ u.port p = { s.port p with
              active := (u.port p).active, staged := (u.port p).staged, commitStatus := .none, awards := [],
              pointers := ⟨15, 15, 15, 15, 15, 15⟩, run := none,
              counters := { (s.port p).counters with a := 0, b := 0 } })
      ∧ (∀ e, u.source e = { s.source e with outstanding := 0 })
      ∧ u.pool = { s.pool with free := 2048, pause := false }
      ∧ u.sw = { s.sw with outq :=
          (if s.sw.sending then s.sw.outq.take 1 ++ (s.sw.outq.drop 1).filter (fun f => f == .sync)
           else s.sw.outq.filter (fun f => f == .sync)) ++ [.forgotten] }
      ∧ u.mg = { s.mg with outq := s.mg.outq.filter (fun f => f != .notice none),
                           notices := { pending := 0, gradePorts := 0, strandPorts := 0 }, resetStage := .idle }
      ∧ u.faults = { held := none, moreMinor := false, moreMajor := false, kindsSeen := 0,
                     ignoreMinor := s.faults.ignoreMinor }
      ∧ u.log = { entries := [], reserved := 0 } ∧ u.groups = [] ∧ u.timeBase = s.timeBase
      ∧ u.pending = s.pending ∧ u.pins = s.pins

/-- RST_N going low ends the work in hand: ATTN and PAUSE are negated and ALERT is low, and the switch link unit and the
frames of the management link are discarded (R130, R135, R148). At its release every block takes its cold values and the
time base starts from 0 (R2, R23, R24, R39, R54, R61, R100, R118, R133, R148, R150, R156, R160); only the model's own
queue of commands is kept (entry 8). That everything else is held between the two edges is the model's choice (entry 9). -/
def Obligations.ColdResetGivesColdValues : Prop :=
  ∀ s : State,
    (∃ t : State, exec .coldResetAssert s = .next t
        ∧ t.pins = { rstN := false, attn := false, alertLow := true, pause := false }
        ∧ t.sw.rx = [] ∧ t.sw.outq = [] ∧ t.sw.sending = false ∧ t.sw.link = .resync ∧ t.sw.checkPulse = none
        ∧ t = { s with pins := t.pins, sw := t.sw,
                       mg := { s.mg with assembly := none, inbound := [], outq := [], sending := false,
                                         resetStage := .idle } })
      ∧ ∃ t : State, exec .coldResetRelease s = .next t ∧ t.pending = s.pending ∧ t.timeBase = 0
        ∧ t.pins = { rstN := true, attn := false, alertLow := true, pause := false }
        ∧ (∀ p, (∀ c,
              ((t.port p).row c).contract
                = { valid := false, lane := .backfill, floorShare := 0, ceilingShare := 1, floorBurst := 0,
                    ceilingBurst := 1, isProtected := false, queueLimit := 1, runHold := 0 }
              ∧ (t.port p).stagedRow c = ((t.port p).row c).contract
              ∧ (t.port p).row c = { (t.port p).row c with fb := 0, cb := 0, rf := 0, rc := 0, e := 0, ce := 0,
                                                           queue := [] }
              ∧ (t.port p).lockCell c = { locked := false, floor := 0 })
            ∧ t.port p = { t.port p with
                commitStatus := .none, referenceGrade := .full,
                settings := { baseRate := 1250, interval := 10, prescale := .us1, window := 4,
                              finishDeadline := 5000, holdDown := 200 },
                loadedPeriod := 10, accrualTimer := 10, awards := [], pointers := ⟨15, 15, 15, 15, 15, 15⟩,
                run := none, mode := .off, grade := .down, stranded := true, holdDownTimer := none,
                counters := { event := .arrivals, cls := 0, a := 0, b := 0 } })
        ∧ (∀ e, t.source e = { valid := false, matchBase := 0, matchMask := 0, cls := 0, limit := 1,
                               admission := .admitted, outstanding := 0 })
        ∧ t.groups = [] ∧ t.pool = { free := 2048, lowMark := 64, highMark := 256, pause := false }
        ∧ t.sw = { link := .resync, rx := [], checkPulse := none, outq := [], sending := false }
        ∧ t.mg = { divider := 54, lineDivider := 54, assembly := none, inbound := [], outq := [], sending := false,
                   dropped := false, notices := { pending := 0, gradePorts := 0, strandPorts := 0 }, enables := 0,
                   resetStage := .idle }
        ∧ t.faults = { held := none, moreMinor := false, moreMajor := false, kindsSeen := 0, ignoreMinor := false }
        ∧ t.log = { entries := [], reserved := 0 }

/-- PORT-SET: a port above 15 is NOT_ALLOWED, an undefined prescale INCONSISTENT, and nothing is stored; else the six
settings are stored, brought into their ranges, with CLAMPED if any was, and a raised window gives a selection
opportunity (R22 to R24, R79, R115 to R117). -/
def Obligations.PortSetStoresTheSettings : Prop :=
  ∀ (pb : Byte) (b : SettingsBody) (s : State), s.requestNext (.request (.portSet pb b)) →
    let replies := fun (u : State) (r : ReplyResult) (body : List Byte) =>
      exec (.portSet pb b) s = .next (u.queueReply 0x10 r body .nothing).settle
    (16 ≤ pb.toNat → replies s.taken .notAllowed (zeros 10))
      ∧ ∀ p : PortNo, pb.toNat = p.val →
          let P := s.port p
          (2 ≤ b.prescale.toNat → replies s.taken .inconsistent (pb :: P.settings.bytes))
          ∧ (b.prescale.toNat < 2 →
              let x : PortSettings :=
                { baseRate := max 1 (min b.baseRate.toNat 12500), interval := max 1 b.interval.toNat,
                  prescale := if b.prescale = 0 then .us1 else .us16, window := max 1 (min b.window.toNat 8),
                  finishDeadline := max 1 b.finishDeadline.toNat, holdDown := b.holdDown.toNat }
              let inRange := 1 ≤ b.baseRate.toNat ∧ b.baseRate.toNat ≤ 12500 ∧ 1 ≤ b.interval.toNat
                ∧ 1 ≤ b.window.toNat ∧ b.window.toNat ≤ 8 ∧ 1 ≤ b.finishDeadline.toNat
              let stored := s.taken.setPort p { P with settings := x }
              let r : ReplyResult := if inRange then .ok else .clamped
              (P.settings.window < x.window → replies (stored.ladder p) r (pb :: x.bytes))
                ∧ (x.window ≤ P.settings.window → replies stored r (pb :: x.bytes)))

/-- PORT-MODE: a port above 15 is NOT_ALLOWED, an undefined mode INCONSISTENT, REHEARSAL for a LIVE or FROZEN port, or an
OFF port with awarded records, BUSY, and nothing changes. A LIVE or FROZEN port set OFF has its queues declined PORT_OFF and its
run closed (R103); a port that leaves REHEARSAL has its records dropped and their reserved log places freed (R105, R165),
and, where that leaves a full log not full, the ports in REHEARSAL have opportunities (R163); a port set LIVE has a
selection opportunity (R102 to R106). -/
def Obligations.PortModeChangesTheMode : Prop :=
  ∀ (pb mb : Byte) (s : State), s.requestNext (.request (.portMode pb mb)) →
    let s0 := s.taken
    let replies := fun (u : State) (r : ReplyResult) (body : List Byte) =>
      exec (.portMode pb mb) s = .next (u.queueReply 0x12 r body .nothing).settle
    (16 ≤ pb.toNat → replies s0 .notAllowed (zeros 4))
      ∧ ∀ p : PortNo, pb.toNat = p.val →
          let P := s.port p
          let set := fun (u : State) (m : Mode) => u.setPort p { u.port p with mode := m }
          let off := set (let v := s0.declineQueues p .portOff; v.setPort p { v.port p with run := none }) .off
          let left := let v := s0.dropRecords p
            { v with log := { v.log with reserved := v.log.reserved - P.awards.length } }
          let freed := fun u : State => if s.log.full = true ∧ u.log.full = false then u.rehearsalOpportunities else u
          let busy := replies s0 .busy [pb, P.mode.code, 0, 0]
          (4 ≤ mb.toNat → replies s0 .inconsistent [pb, P.mode.code, 0, 0])
            ∧ (mb = 0 → (P.mode = .off → replies s0 .ok [pb, 0, 0, 0])
                ∧ (P.mode = .live ∨ P.mode = .frozen → replies off .ok (pb :: 0 :: nat2 P.queued.length))
                ∧ (P.mode = .rehearsal →
                    replies (freed (set left .off)) .ok (pb :: 0 :: nat2 P.records.length)))
            ∧ (mb = 1 → (P.mode ≠ .rehearsal → replies ((set s0 .live).ladder p) .ok [pb, 1, 0, 0])
                ∧ (P.mode = .rehearsal →
                    replies (freed ((set left .live).ladder p)) .ok (pb :: 1 :: nat2 P.records.length)))
            ∧ (mb = 2 → (P.mode ≠ .rehearsal → replies (set s0 .frozen) .ok [pb, 2, 0, 0])
                ∧ (P.mode = .rehearsal →
                    replies (freed (set left .frozen)) .ok (pb :: 2 :: nat2 P.records.length)))
            ∧ (mb = 3 → (P.mode = .live ∨ P.mode = .frozen → busy)
                ∧ (P.mode = .off → P.awards ≠ [] → busy)
                ∧ (P.mode = .off → P.awards = [] → replies (set s0 .rehearsal) .ok [pb, 3, 0, 0])
                ∧ (P.mode = .rehearsal → replies s0 .ok [pb, 3, 0, 0]))

/-- SOURCE-SET in the order of R41: NOT_ALLOWED for an entry above 63 or a class above 15, INCONSISTENT for an undefined
code, BUSY for a change of identity while records are outstanding; else all six host fields are stored, a limit of 0 as 1
with CLAMPED, and the outstanding count is unchanged (R42). -/
def Obligations.SourceSetStoresTheEntry : Prop :=
  ∀ (eb : Byte) (b : SourceBody) (s : State), s.requestNext (.request (.sourceSet eb b)) →
    let replies := fun (u : State) (r : ReplyResult) (body : List Byte) =>
      exec (.sourceSet eb b) s = .next (u.queueReply 0x20 r body .nothing).settle
    (64 ≤ eb.toNat → replies s.taken .notAllowed (zeros 12))
      ∧ ∀ e : EntryNo, eb.toNat = e.val →
          let x := s.source e
          let y : SourceEntry :=
            { valid := b.valid = 1, matchBase := b.matchBase, matchMask := b.matchMask, cls := Fin.ofNat 16 b.cls.toNat,
              limit := max 1 b.limit.toNat, admission := if b.admission = 0 then .admitted else .muted,
              outstanding := x.outstanding }
          let identityChanges := y.matchBase ≠ x.matchBase ∨ y.matchMask ≠ x.matchMask ∨ y.cls ≠ x.cls
            ∨ (x.valid = true ∧ y.valid = false)
          (16 ≤ b.cls.toNat → replies s.taken .notAllowed (eb :: x.bytes))
            ∧ (b.cls.toNat < 16 → 2 ≤ b.valid.toNat ∨ 2 ≤ b.admission.toNat →
                replies s.taken .inconsistent (eb :: x.bytes))
            ∧ (b.cls.toNat < 16 → b.valid.toNat < 2 → b.admission.toNat < 2 →
                (0 < x.outstanding → identityChanges → replies s.taken .busy (eb :: x.bytes))
                ∧ (x.outstanding = 0 ∨ ¬ identityChanges →
                    replies (s.taken.setSource e y) (if b.limit = 0 then .clamped else .ok) (eb :: y.bytes)))

/-- CONTRACT-STAGE in the order of R5: NOT_ALLOWED, BUSY while a commit is pending, INCONSISTENT for an undefined code or,
after clamping, f above c or the floor burst above the ceiling burst, LOCKED where the lock cell would be broken; else the
whole staged row is written, with CLAMPED if a field was clamped; the active row and all else are unchanged (R5 to R9). -/
def Obligations.ContractStageWritesTheRow : Prop :=
  ∀ (pb cb : Byte) (b : ContractBody) (s : State), s.requestNext (.request (.contractStage pb cb b)) →
    let replies := fun (u : State) (r : ReplyResult) (body : List Byte) =>
      exec (.contractStage pb cb b) s = .next (u.queueReply 0x30 r body .nothing).settle
    (16 ≤ pb.toNat ∨ 16 ≤ cb.toNat → replies s.taken .notAllowed (zeros 17))
      ∧ ∀ (p : PortNo) (c : ClassNo), pb.toNat = p.val → cb.toNat = c.val →
          let P := s.port p
          let cell := P.lockCell c
          let old := pb :: cb :: (P.stagedRow c).bytes
          let x : Contract :=
            { valid := b.valid = 1, lane := if b.lane = 0 then .prime else if b.lane = 1 then .main else .backfill,
              floorShare := min b.floorShare.toNat 1024, ceilingShare := max 1 (min b.ceilingShare.toNat 1024),
              floorBurst := b.floorBurst.toNat, ceilingBurst := max 1 b.ceilingBurst.toNat,
              isProtected := b.isProtected = 1, queueLimit := max 1 (min b.queueLimit.toNat 255),
              runHold := b.runHold.toNat }
          let defined := b.valid.toNat < 2 ∧ b.lane.toNat < 3 ∧ b.isProtected.toNat < 2
          let consistent := defined ∧ x.floorShare ≤ x.ceilingShare ∧ x.floorBurst ≤ x.ceilingBurst
          let breaks := cell.locked = true ∧ (x.valid = false ∨ x.isProtected = false ∨ x.floorShare < cell.floor)
          let inRange := b.floorShare.toNat ≤ 1024 ∧ 1 ≤ b.ceilingShare.toNat ∧ b.ceilingShare.toNat ≤ 1024
            ∧ 1 ≤ b.ceilingBurst.toNat ∧ 1 ≤ b.queueLimit.toNat ∧ b.queueLimit.toNat ≤ 255
          (P.commitStatus = .pending → replies s.taken .busy old)
            ∧ (P.commitStatus ≠ .pending →
                (¬ consistent → replies s.taken .inconsistent old)
                ∧ (consistent → breaks → replies s.taken .locked old)
                ∧ (consistent → ¬ breaks →
                    replies (s.taken.setPort p (P.setStaged c x)) (if inRange then .ok else .clamped)
                      (pb :: cb :: x.bytes)))

/-- LOCK in the order of R21: NOT_ALLOWED, BUSY while a commit is pending, NOT_ALLOWED for an active row that is invalid or
not protected; else the cell becomes locked with the active row's floor share. -/
def Obligations.LockPinsTheFloor : Prop :=
  ∀ (pb cb : Byte) (s : State), s.requestNext (.request (.lock pb cb)) →
    let replies := fun (u : State) (r : ReplyResult) (body : List Byte) =>
      exec (.lock pb cb) s = .next (u.queueReply 0x34 r body .nothing).settle
    (16 ≤ pb.toNat ∨ 16 ≤ cb.toNat → replies s.taken .notAllowed (zeros 5))
      ∧ ∀ (p : PortNo) (c : ClassNo), pb.toNat = p.val → cb.toNat = c.val →
          let P := s.port p
          let x := (P.row c).contract
          let kept := pb :: cb :: flag (P.lockCell c).locked :: nat2 (P.lockCell c).floor
          (P.commitStatus = .pending → replies s.taken .busy kept)
            ∧ (P.commitStatus ≠ .pending → x.valid = false ∨ x.isProtected = false →
                replies s.taken .notAllowed kept)
            ∧ (P.commitStatus ≠ .pending → x.valid = true → x.isProtected = true →
                replies (s.taken.setPort p (P.setLock c { locked := true, floor := x.floorShare })) .ok
                  (pb :: cb :: 1 :: nat2 x.floorShare))

/-- COMMIT: the named ports are examined in ascending order, each for a pending commit, staged floor shares above 1024, and
a staged row that breaks a lock; the first failure refuses the whole and names the port, and the class of a broken lock.
With no failure every named port becomes PENDING and a non-empty mask makes one commit group (R11, R12). -/
def Obligations.CommitIsAcceptedForAllOrRefused : Prop :=
  ∀ (m : PortSet) (s : State), s.requestNext (.request (.commit m)) →
    let replies := fun (u : State) (r : ReplyResult) (body : List Byte) =>
      exec (.commit m) s = .next (u.queueReply 0x32 r body .nothing).settle
    let named := fun p : PortNo => m.getLsbD p.val = true
    let busy := fun p : PortNo => (s.port p).commitStatus = .pending
    let overcommitted := fun p : PortNo =>
      1024 < (((s.port p).staged.toList.filter (fun c => c.valid)).map (fun c => c.floorShare)).sum
    let breaks := fun (p : PortNo) (c : ClassNo) =>
      let x := (s.port p).stagedRow c
      let l := (s.port p).lockCell c
      l.locked = true ∧ (x.valid = false ∨ x.isProtected = false ∨ x.floorShare < l.floor)
    let fails := fun p : PortNo => busy p ∨ overcommitted p ∨ ∃ c, breaks p c
    (∀ p, named p → (∀ q, q < p → named q → ¬ fails q) →
        (busy p → replies s.taken .busy [byte1 p.val, 0xFF])
        ∧ (¬ busy p → overcommitted p → replies s.taken .overcommit [byte1 p.val, 0xFF])
        ∧ (¬ busy p → ¬ overcommitted p → ∀ c, breaks p c → (∀ d, d < c → ¬ breaks p d) →
            replies s.taken .locked [byte1 p.val, byte1 c.val]))
      ∧ ((∀ p, named p → ¬ fails p) → ∃ u : State, replies u .ok [0xFF, 0xFF]
          ∧ u = { s.taken with ports := u.ports, groups := if m = 0 then s.groups else s.groups ++ [m] }
          ∧ ∀ p, u.port p = { s.port p with
              commitStatus := if m.getLsbD p.val then .pending else (s.port p).commitStatus })

/-- ABORT-COMMIT: each named PENDING port becomes ABORTED and leaves its commit group, whose end raises no notice; the
reply carries the aborted set and the set of the named APPLIED ports, and nothing else changes (R19). -/
def Obligations.AbortCommitAbortsPendingPorts : Prop :=
  ∀ (m : PortSet) (s : State), s.requestNext (.request (.abortCommit m)) →
    let pending := fun p : PortNo => m.getLsbD p.val = true ∧ (s.port p).commitStatus = .pending
    ∃ (u : State) (aborted applied : PortSet),
      exec (.abortCommit m) s
          = .next (u.queueReply 0x33 .ok (bytes2 aborted ++ bytes2 applied) .nothing).settle
        ∧ (∀ p : PortNo, aborted.getLsbD p.val = true ↔ pending p)
        ∧ (∀ p : PortNo, applied.getLsbD p.val = true ↔
            m.getLsbD p.val = true ∧ (s.port p).commitStatus = .applied)
        ∧ (∀ p, u.port p = { s.port p with
            commitStatus := if aborted.getLsbD p.val then .aborted else (s.port p).commitStatus })
        ∧ (aborted ≠ 0 →
            u.groups = (s.groups.map (fun g => g &&& ~~~ aborted)).filter (fun g => g != 0))
        ∧ (aborted = 0 → u.groups = s.groups)
        ∧ u = { s.taken with ports := u.ports, groups := u.groups }

/-- FAULT-CLEAR answers with the record as it stands and then empties it, its flags and the kinds-seen set, keeping
ignore-minor (R155). FAULT-MODE stores ignore-minor, an undefined value is INCONSISTENT (R153); the zeros of a refused
reply's body are entry 16. -/
def Obligations.FaultRequestsAct : Prop :=
  ∀ s : State,
    (s.requestNext (.request .faultClear) → exec .faultClear s
        = .next ({ s.taken with faults := { held := none, moreMinor := false, moreMajor := false, kindsSeen := 0,
                                            ignoreMinor := s.faults.ignoreMinor } }.queueReply
            0x51 .ok s.faults.bytes .nothing).settle)
      ∧ (∀ v : Byte, s.requestNext (.request (.faultMode v)) →
          (v.toNat < 2 → exec (.faultMode v) s
              = .next ({ s.taken with faults := { s.faults with ignoreMinor := v = 1 } }.queueReply
                  0x52 .ok [v, flag s.faults.held.isSome] .nothing).settle)
          ∧ (2 ≤ v.toNat → exec (.faultMode v) s
              = .next (s.taken.queueReply 0x52 .inconsistent [0, 0] .nothing).settle))

/-- COUNTER-SELECT stores both selections; a new event selection clears both counters, a new class selection alone clears
B (R158). COUNTER-READ answers with the selections and counts and then clears the counts if asked (R159). Both refuse a
port above 15 (and a class above 15) with NOT_ALLOWED and an undefined code with INCONSISTENT. A counter event adds its
amount to counter A if it is the selected kind, and to counter B too if it carries the selected class; each saturates at
4,294,967,295; an event of another kind changes neither (R157). That a COUNTER-READ with both a port above 15 and an
undefined clear-on-read value is NOT_ALLOWED is the model's choice (entry 29): R159 states no order. -/
def Obligations.CounterRequestsAct : Prop :=
  (∀ (x : CounterPair) (ev : CounterEvent) (cls : Option ClassNo) (n : Nat),
    let y := x.count ev cls n
    y.event = x.event ∧ y.cls = x.cls
      ∧ (ev = x.event → y.a = min (x.a + n) 4294967295)
      ∧ (ev = x.event → cls = some x.cls → y.b = min (x.b + n) 4294967295)
      ∧ (cls ≠ some x.cls → y.b = x.b) ∧ (ev ≠ x.event → y = x))
  ∧ ∀ (s : State) (pb eb cb : Byte),
    let select := fun (u : State) (r : ReplyResult) (body : List Byte) =>
      exec (.counterSelect pb eb cb) s = .next (u.queueReply 0x53 r body .nothing).settle
    let read := fun (u : State) (r : ReplyResult) (body : List Byte) =>
      exec (.counterRead pb eb) s = .next (u.queueReply 0x54 r body .nothing).settle
    (s.requestNext (.request (.counterSelect pb eb cb)) →
        (16 ≤ pb.toNat ∨ 16 ≤ cb.toNat → select s.taken .notAllowed (zeros 11))
        ∧ ∀ (p : PortNo) (c : ClassNo), pb.toNat = p.val → cb.toNat = c.val →
            (8 ≤ eb.toNat → select s.taken .inconsistent (zeros 11))
            ∧ ∀ ev : CounterEvent, ev.code = eb →
                let x := (s.port p).counters
                let y : CounterPair := { event := ev, cls := c, a := if ev = x.event then x.a else 0,
                                         b := if ev = x.event ∧ c = x.cls then x.b else 0 }
                select (s.taken.setPort p { s.port p with counters := y }) .ok
                  (pb :: eb :: cb :: (nat4 y.a ++ nat4 y.b)))
      ∧ (s.requestNext (.request (.counterRead pb eb)) →
        (16 ≤ pb.toNat → read s.taken .notAllowed (zeros 11))
        ∧ ∀ p : PortNo, pb.toNat = p.val →
            let x := (s.port p).counters
            let body := pb :: x.event.code :: byte1 x.cls.val :: (nat4 x.a ++ nat4 x.b)
            (2 ≤ eb.toNat → read s.taken .inconsistent (zeros 11))
            ∧ (eb = 0 → read s.taken .ok body)
            ∧ (eb = 1 → read (s.taken.setPort p { s.port p with counters := { x with a := 0, b := 0 } }) .ok body))

/-- TEST-BID: NOT_ALLOWED for a port not in REHEARSAL; else checks 2 to 9 of Table 3.4, a decline with its fault and
counter events and no frame, or an acceptance with its selection opportunity before the reply, whose outcome is 0 for
ACCEPTED or the cause's code (R161). -/
def Obligations.TestBidIsAcceptedOrDeclined : Prop :=
  ∀ (b : BidBody) (s : State), s.requestNext (.request (.testBid b)) →
    let s0 := s.taken
    let P := s.port b.port
    let replies := fun (u : State) (outcome : Byte) =>
      exec (.testBid b) s
        = .next (u.queueReply 0x60 .ok (portNibble b.port 0 :: (bytes2 b.tag ++ [outcome])) .nothing).settle
    let counted := fun (u : State) (k : Option ClassNo) =>
      (u.count b.port .arrivals k 1).count b.port .declines k 1
    let faulted := fun (kind : FaultKind) (k : Option ClassNo) (e : Option EntryNo) => s0.reportFault
      { kind := kind, time := s.timeBase, port := some b.port, cls := k, source := e, tag := some b.tag,
        address := some b.address }
    (P.mode ≠ .rehearsal →
        exec (.testBid b) s = .next (s0.queueReply 0x60 .notAllowed (zeros 4) .nothing).settle)
      ∧ (P.mode = .rehearsal →
          (P.stranded = true → replies (counted s0 none) 3)
          ∧ (P.stranded = false → s.lookup b.address = none →
              replies (counted (faulted .unknownSource none none) none) 4)
          ∧ (P.stranded = false → ∀ e, s.lookup b.address = some e →
              let x := s.source e
              let r := P.row x.cls
              let used := ∃ a ∈ P.records, a.tag = b.tag
              let k := some x.cls
              (x.admission = .muted → replies (counted s0 k) 5)
              ∧ (x.admission = .admitted → r.contract.valid = false → replies (counted s0 k) 6)
              ∧ (x.admission = .admitted → r.contract.valid = true →
                  (used → replies (counted (faulted .duplicateTag k (some e)) k) 7)
                  ∧ (¬ used → x.limit ≤ x.outstanding → replies (counted s0 k) 8)
                  ∧ (¬ used → x.outstanding < x.limit →
                      (r.contract.queueLimit ≤ r.queue.length → replies (counted s0 k) 9)
                      ∧ (r.queue.length < r.contract.queueLimit →
                          (s.pool.free = 0 → replies (counted (faulted .poolExhausted k (some e)) k) 10)
                          ∧ (0 < s.pool.free →
                              let record : BidRecord :=
                                { tag := b.tag, source := e, cls := x.cls, length := b.codedLength.toNat + 1,
                                  key := b.key, acceptTime := s.timeBase }
                              let s1 := (s0.mapPort b.port (fun P =>
                                P.setRow x.cls { r with queue := r.queue ++ [record] })).count b.port .arrivals k 1
                              let s2 := s1.setSource e { x with outstanding := x.outstanding + 1 }
                              let s3 := { s2 with pool := { s.pool with free := s.pool.free - 1 } }.evaluatePause
                              replies (s3.ladder b.port) 0))))))

/-- TEST-FINISH: NOT_ALLOWED for a port not in REHEARSAL; an awarded record finishes as by a FINISH, its reserved log place
becomes free, the opportunities of the port, or of every port in REHEARSAL where a full log became not full, follow, and
the reply carries FINISHED and the refund; any other is STRAY with STRAY_FINISH and a refund of 0 (R163, R164). -/
def Obligations.TestFinishEndsARecordOrIsStray : Prop :=
  ∀ (f : FinishBody) (s : State), s.requestNext (.request (.testFinish f)) → s.TagsUnique →
    let s0 := s.taken
    let P := s.port f.port
    let replies := fun (u : State) (outcome : Byte) (refund : Nat) =>
      exec (.testFinish f) s = .next (u.queueReply 0x61 .ok
        (portNibble f.port 0 :: (bytes2 f.tag ++ outcome :: nat3 refund)) .nothing).settle
    let stray := fun b : Option BidRecord =>
      replies (s0.reportFault
        { kind := .strayFinish, time := s.timeBase, port := some f.port, cls := b.map (fun b => b.cls),
          source := b.map (fun b => b.source), tag := some f.tag, address := none }) 1 0
    (P.mode ≠ .rehearsal →
        exec (.testFinish f) s = .next (s0.queueReply 0x61 .notAllowed (zeros 7) .nothing).settle)
      ∧ (P.mode = .rehearsal →
          (∀ (before after : List AwardRecord) (a : AwardRecord),
              P.awards = before ++ a :: after → a.bid.tag = f.tag →
              let due := if a.refundable then a.bid.length - min f.moved.toNat a.bid.length else 0
              let r := P.row a.bid.cls
              let cb := min (r.cb + due) (burstBytes r.contract.ceilingBurst)
              let refunded : Row := match a.charge with
                | .floor => { r with fb := min (r.fb + due) (burstBytes r.contract.floorBurst), cb := cb }
                | .ceiling => { r with cb := cb }
              let Q := { P with awards := before ++ after }
              let s1 := if a.bid.length < f.moved.toNat then
                  s0.reportFault { kind := .overlengthFinish, time := s.timeBase, port := some f.port,
                                   cls := some a.bid.cls, source := some a.bid.source, tag := some f.tag,
                                   address := none }
                else s0
              let s2 := s1.setPort f.port (if due = 0 then Q else Q.setRow a.bid.cls refunded)
              let s3 := { s2 with log := { s.log with reserved := s.log.reserved - 1 } }.returnRecord a.bid
              (s.log.full = true → s3.log.full = false → replies s3.rehearsalOpportunities 0 due)
              ∧ (s.log.full = false ∨ s3.log.full = true → replies (s3.ladder f.port) 0 due))
          ∧ (∀ c, ∀ b ∈ (P.row c).queue, b.tag = f.tag → stray (some b))
          ∧ ((∀ b ∈ P.records, b.tag ≠ f.tag) → stray none))

/-- REHEARSAL-READ gives up to 16 of the oldest entries in order and removes them; where a full log is then not full every
port in REHEARSAL has an opportunity, in ascending port order, before the reply, which carries the counts as they then
stand (R163, R166). -/
def Obligations.RehearsalReadRemovesEntries : Prop :=
  ∀ s : State, s.requestNext (.request .rehearsalRead) →
    let given := s.log.entries.take 16
    let read := { s.taken with log := { s.log with entries := s.log.entries.drop 16 } }
    let full := fun l : RehearsalLog => 63 ≤ l.entries.length + l.reserved
    let replies := fun u : State => exec .rehearsalRead s = .next (u.queueReply 0x62 .ok
      ([byte1 given.length, byte1 u.log.entries.length, byte1 u.log.reserved,
        byte1 (64 - u.log.entries.length - u.log.reserved)] ++ given.flatMap LogEntry.bytes) .nothing).settle
    (full s.log → ¬ full read.log →
        replies (ascending.foldl (fun u p => if (u.port p).mode = .rehearsal then u.ladder p else u) read))
      ∧ (¬ full s.log ∨ full read.log → replies read)
end

