-- ==== Sys2Proof/Laws/State.lean ====
section
/-! SUPPORT. The small lemmas of the updates of a state and of a port: one for each field that an update leaves as it
was, and the reads of the port, row, source entry, staged row and lock cell that an update has written. -/

namespace Sys2Proof.Machine

/-! ## Fields that an update leaves as they were -/

@[simp] theorem State.setPort_pending (s : State) (p : PortNo) (P : Port) : (s.setPort p P).pending = s.pending := rfl
@[simp] theorem State.setPort_pins (s : State) (p : PortNo) (P : Port) : (s.setPort p P).pins = s.pins := rfl
@[simp] theorem State.setPort_timeBase (s : State) (p : PortNo) (P : Port) : (s.setPort p P).timeBase = s.timeBase := rfl
@[simp] theorem State.setPort_groups (s : State) (p : PortNo) (P : Port) : (s.setPort p P).groups = s.groups := rfl
@[simp] theorem State.setPort_sources (s : State) (p : PortNo) (P : Port) : (s.setPort p P).sources = s.sources := rfl
@[simp] theorem State.setPort_pool (s : State) (p : PortNo) (P : Port) : (s.setPort p P).pool = s.pool := rfl
@[simp] theorem State.setPort_sw (s : State) (p : PortNo) (P : Port) : (s.setPort p P).sw = s.sw := rfl
@[simp] theorem State.setPort_mg (s : State) (p : PortNo) (P : Port) : (s.setPort p P).mg = s.mg := rfl
@[simp] theorem State.setPort_faults (s : State) (p : PortNo) (P : Port) : (s.setPort p P).faults = s.faults := rfl
@[simp] theorem State.setPort_log (s : State) (p : PortNo) (P : Port) : (s.setPort p P).log = s.log := rfl

@[simp] theorem State.mapPort_pending (s : State) (p : PortNo) (f : Port → Port) : (s.mapPort p f).pending = s.pending := rfl
@[simp] theorem State.mapPort_pins (s : State) (p : PortNo) (f : Port → Port) : (s.mapPort p f).pins = s.pins := rfl
@[simp] theorem State.mapPort_timeBase (s : State) (p : PortNo) (f : Port → Port) : (s.mapPort p f).timeBase = s.timeBase := rfl
@[simp] theorem State.mapPort_groups (s : State) (p : PortNo) (f : Port → Port) : (s.mapPort p f).groups = s.groups := rfl
@[simp] theorem State.mapPort_sources (s : State) (p : PortNo) (f : Port → Port) : (s.mapPort p f).sources = s.sources := rfl
@[simp] theorem State.mapPort_pool (s : State) (p : PortNo) (f : Port → Port) : (s.mapPort p f).pool = s.pool := rfl
@[simp] theorem State.mapPort_sw (s : State) (p : PortNo) (f : Port → Port) : (s.mapPort p f).sw = s.sw := rfl
@[simp] theorem State.mapPort_mg (s : State) (p : PortNo) (f : Port → Port) : (s.mapPort p f).mg = s.mg := rfl
@[simp] theorem State.mapPort_faults (s : State) (p : PortNo) (f : Port → Port) : (s.mapPort p f).faults = s.faults := rfl
@[simp] theorem State.mapPort_log (s : State) (p : PortNo) (f : Port → Port) : (s.mapPort p f).log = s.log := rfl

@[simp] theorem State.setSource_pending (s : State) (e : EntryNo) (x : SourceEntry) : (s.setSource e x).pending = s.pending := rfl
@[simp] theorem State.setSource_pins (s : State) (e : EntryNo) (x : SourceEntry) : (s.setSource e x).pins = s.pins := rfl
@[simp] theorem State.setSource_timeBase (s : State) (e : EntryNo) (x : SourceEntry) : (s.setSource e x).timeBase = s.timeBase := rfl
@[simp] theorem State.setSource_ports (s : State) (e : EntryNo) (x : SourceEntry) : (s.setSource e x).ports = s.ports := rfl
@[simp] theorem State.setSource_groups (s : State) (e : EntryNo) (x : SourceEntry) : (s.setSource e x).groups = s.groups := rfl
@[simp] theorem State.setSource_pool (s : State) (e : EntryNo) (x : SourceEntry) : (s.setSource e x).pool = s.pool := rfl
@[simp] theorem State.setSource_sw (s : State) (e : EntryNo) (x : SourceEntry) : (s.setSource e x).sw = s.sw := rfl
@[simp] theorem State.setSource_mg (s : State) (e : EntryNo) (x : SourceEntry) : (s.setSource e x).mg = s.mg := rfl
@[simp] theorem State.setSource_faults (s : State) (e : EntryNo) (x : SourceEntry) : (s.setSource e x).faults = s.faults := rfl
@[simp] theorem State.setSource_log (s : State) (e : EntryNo) (x : SourceEntry) : (s.setSource e x).log = s.log := rfl

@[simp] theorem State.pushSwitch_pending (s : State) (f : SwOut) : (s.pushSwitch f).pending = s.pending := rfl
@[simp] theorem State.pushSwitch_pins (s : State) (f : SwOut) : (s.pushSwitch f).pins = s.pins := rfl
@[simp] theorem State.pushSwitch_timeBase (s : State) (f : SwOut) : (s.pushSwitch f).timeBase = s.timeBase := rfl
@[simp] theorem State.pushSwitch_ports (s : State) (f : SwOut) : (s.pushSwitch f).ports = s.ports := rfl
@[simp] theorem State.pushSwitch_groups (s : State) (f : SwOut) : (s.pushSwitch f).groups = s.groups := rfl
@[simp] theorem State.pushSwitch_sources (s : State) (f : SwOut) : (s.pushSwitch f).sources = s.sources := rfl
@[simp] theorem State.pushSwitch_pool (s : State) (f : SwOut) : (s.pushSwitch f).pool = s.pool := rfl
@[simp] theorem State.pushSwitch_mg (s : State) (f : SwOut) : (s.pushSwitch f).mg = s.mg := rfl
@[simp] theorem State.pushSwitch_faults (s : State) (f : SwOut) : (s.pushSwitch f).faults = s.faults := rfl
@[simp] theorem State.pushSwitch_log (s : State) (f : SwOut) : (s.pushSwitch f).log = s.log := rfl

@[simp] theorem State.setFree_pending (s : State) (n : Nat) : (s.setFree n).pending = s.pending := rfl
@[simp] theorem State.setFree_pins (s : State) (n : Nat) : (s.setFree n).pins = s.pins := rfl
@[simp] theorem State.setFree_timeBase (s : State) (n : Nat) : (s.setFree n).timeBase = s.timeBase := rfl
@[simp] theorem State.setFree_ports (s : State) (n : Nat) : (s.setFree n).ports = s.ports := rfl
@[simp] theorem State.setFree_groups (s : State) (n : Nat) : (s.setFree n).groups = s.groups := rfl
@[simp] theorem State.setFree_sources (s : State) (n : Nat) : (s.setFree n).sources = s.sources := rfl
@[simp] theorem State.setFree_sw (s : State) (n : Nat) : (s.setFree n).sw = s.sw := rfl
@[simp] theorem State.setFree_mg (s : State) (n : Nat) : (s.setFree n).mg = s.mg := rfl
@[simp] theorem State.setFree_faults (s : State) (n : Nat) : (s.setFree n).faults = s.faults := rfl
@[simp] theorem State.setFree_log (s : State) (n : Nat) : (s.setFree n).log = s.log := rfl

@[simp] theorem State.setReserved_pending (s : State) (n : Nat) : (s.setReserved n).pending = s.pending := rfl
@[simp] theorem State.setReserved_pins (s : State) (n : Nat) : (s.setReserved n).pins = s.pins := rfl
@[simp] theorem State.setReserved_timeBase (s : State) (n : Nat) : (s.setReserved n).timeBase = s.timeBase := rfl
@[simp] theorem State.setReserved_ports (s : State) (n : Nat) : (s.setReserved n).ports = s.ports := rfl
@[simp] theorem State.setReserved_groups (s : State) (n : Nat) : (s.setReserved n).groups = s.groups := rfl
@[simp] theorem State.setReserved_sources (s : State) (n : Nat) : (s.setReserved n).sources = s.sources := rfl
@[simp] theorem State.setReserved_pool (s : State) (n : Nat) : (s.setReserved n).pool = s.pool := rfl
@[simp] theorem State.setReserved_sw (s : State) (n : Nat) : (s.setReserved n).sw = s.sw := rfl
@[simp] theorem State.setReserved_mg (s : State) (n : Nat) : (s.setReserved n).mg = s.mg := rfl
@[simp] theorem State.setReserved_faults (s : State) (n : Nat) : (s.setReserved n).faults = s.faults := rfl

@[simp] theorem State.setRx_pending (s : State) (rx : List Byte) : (s.setRx rx).pending = s.pending := rfl
@[simp] theorem State.setRx_pins (s : State) (rx : List Byte) : (s.setRx rx).pins = s.pins := rfl
@[simp] theorem State.setRx_timeBase (s : State) (rx : List Byte) : (s.setRx rx).timeBase = s.timeBase := rfl
@[simp] theorem State.setRx_ports (s : State) (rx : List Byte) : (s.setRx rx).ports = s.ports := rfl
@[simp] theorem State.setRx_groups (s : State) (rx : List Byte) : (s.setRx rx).groups = s.groups := rfl
@[simp] theorem State.setRx_sources (s : State) (rx : List Byte) : (s.setRx rx).sources = s.sources := rfl
@[simp] theorem State.setRx_pool (s : State) (rx : List Byte) : (s.setRx rx).pool = s.pool := rfl
@[simp] theorem State.setRx_mg (s : State) (rx : List Byte) : (s.setRx rx).mg = s.mg := rfl
@[simp] theorem State.setRx_faults (s : State) (rx : List Byte) : (s.setRx rx).faults = s.faults := rfl
@[simp] theorem State.setRx_log (s : State) (rx : List Byte) : (s.setRx rx).log = s.log := rfl

@[simp] theorem State.count_pending (s : State) (p : PortNo) (ev : CounterEvent) (cls : Option ClassNo) (n : Nat) : (s.count p ev cls n).pending = s.pending := rfl
@[simp] theorem State.count_pins (s : State) (p : PortNo) (ev : CounterEvent) (cls : Option ClassNo) (n : Nat) : (s.count p ev cls n).pins = s.pins := rfl
@[simp] theorem State.count_timeBase (s : State) (p : PortNo) (ev : CounterEvent) (cls : Option ClassNo) (n : Nat) : (s.count p ev cls n).timeBase = s.timeBase := rfl
@[simp] theorem State.count_groups (s : State) (p : PortNo) (ev : CounterEvent) (cls : Option ClassNo) (n : Nat) : (s.count p ev cls n).groups = s.groups := rfl
@[simp] theorem State.count_sources (s : State) (p : PortNo) (ev : CounterEvent) (cls : Option ClassNo) (n : Nat) : (s.count p ev cls n).sources = s.sources := rfl
@[simp] theorem State.count_pool (s : State) (p : PortNo) (ev : CounterEvent) (cls : Option ClassNo) (n : Nat) : (s.count p ev cls n).pool = s.pool := rfl
@[simp] theorem State.count_sw (s : State) (p : PortNo) (ev : CounterEvent) (cls : Option ClassNo) (n : Nat) : (s.count p ev cls n).sw = s.sw := rfl
@[simp] theorem State.count_mg (s : State) (p : PortNo) (ev : CounterEvent) (cls : Option ClassNo) (n : Nat) : (s.count p ev cls n).mg = s.mg := rfl
@[simp] theorem State.count_faults (s : State) (p : PortNo) (ev : CounterEvent) (cls : Option ClassNo) (n : Nat) : (s.count p ev cls n).faults = s.faults := rfl
@[simp] theorem State.count_log (s : State) (p : PortNo) (ev : CounterEvent) (cls : Option ClassNo) (n : Nat) : (s.count p ev cls n).log = s.log := rfl

@[simp] theorem State.queueReply_pending (s : State) (k : Byte) (r : ReplyResult) (b : List Byte) (o : OnSent) : (s.queueReply k r b o).pending = s.pending := rfl
@[simp] theorem State.queueReply_pins (s : State) (k : Byte) (r : ReplyResult) (b : List Byte) (o : OnSent) : (s.queueReply k r b o).pins = s.pins := rfl
@[simp] theorem State.queueReply_timeBase (s : State) (k : Byte) (r : ReplyResult) (b : List Byte) (o : OnSent) : (s.queueReply k r b o).timeBase = s.timeBase := rfl
@[simp] theorem State.queueReply_ports (s : State) (k : Byte) (r : ReplyResult) (b : List Byte) (o : OnSent) : (s.queueReply k r b o).ports = s.ports := rfl
@[simp] theorem State.queueReply_groups (s : State) (k : Byte) (r : ReplyResult) (b : List Byte) (o : OnSent) : (s.queueReply k r b o).groups = s.groups := rfl
@[simp] theorem State.queueReply_sources (s : State) (k : Byte) (r : ReplyResult) (b : List Byte) (o : OnSent) : (s.queueReply k r b o).sources = s.sources := rfl
@[simp] theorem State.queueReply_pool (s : State) (k : Byte) (r : ReplyResult) (b : List Byte) (o : OnSent) : (s.queueReply k r b o).pool = s.pool := rfl
@[simp] theorem State.queueReply_sw (s : State) (k : Byte) (r : ReplyResult) (b : List Byte) (o : OnSent) : (s.queueReply k r b o).sw = s.sw := rfl
@[simp] theorem State.queueReply_faults (s : State) (k : Byte) (r : ReplyResult) (b : List Byte) (o : OnSent) : (s.queueReply k r b o).faults = s.faults := rfl
@[simp] theorem State.queueReply_log (s : State) (k : Byte) (r : ReplyResult) (b : List Byte) (o : OnSent) : (s.queueReply k r b o).log = s.log := rfl

@[simp] theorem State.taken_pending (s : State) : (s.taken).pending = s.pending := rfl
@[simp] theorem State.taken_pins (s : State) : (s.taken).pins = s.pins := rfl
@[simp] theorem State.taken_timeBase (s : State) : (s.taken).timeBase = s.timeBase := rfl
@[simp] theorem State.taken_ports (s : State) : (s.taken).ports = s.ports := rfl
@[simp] theorem State.taken_groups (s : State) : (s.taken).groups = s.groups := rfl
@[simp] theorem State.taken_sources (s : State) : (s.taken).sources = s.sources := rfl
@[simp] theorem State.taken_pool (s : State) : (s.taken).pool = s.pool := rfl
@[simp] theorem State.taken_sw (s : State) : (s.taken).sw = s.sw := rfl
@[simp] theorem State.taken_faults (s : State) : (s.taken).faults = s.faults := rfl
@[simp] theorem State.taken_log (s : State) : (s.taken).log = s.log := rfl

@[simp] theorem State.pastFrame_pending (s : State) (f : Wire.SwIn) : (s.pastFrame f).pending = s.pending := rfl
@[simp] theorem State.pastFrame_pins (s : State) (f : Wire.SwIn) : (s.pastFrame f).pins = s.pins := rfl
@[simp] theorem State.pastFrame_timeBase (s : State) (f : Wire.SwIn) : (s.pastFrame f).timeBase = s.timeBase := rfl
@[simp] theorem State.pastFrame_ports (s : State) (f : Wire.SwIn) : (s.pastFrame f).ports = s.ports := rfl
@[simp] theorem State.pastFrame_groups (s : State) (f : Wire.SwIn) : (s.pastFrame f).groups = s.groups := rfl
@[simp] theorem State.pastFrame_sources (s : State) (f : Wire.SwIn) : (s.pastFrame f).sources = s.sources := rfl
@[simp] theorem State.pastFrame_pool (s : State) (f : Wire.SwIn) : (s.pastFrame f).pool = s.pool := rfl
@[simp] theorem State.pastFrame_mg (s : State) (f : Wire.SwIn) : (s.pastFrame f).mg = s.mg := rfl
@[simp] theorem State.pastFrame_faults (s : State) (f : Wire.SwIn) : (s.pastFrame f).faults = s.faults := rfl
@[simp] theorem State.pastFrame_log (s : State) (f : Wire.SwIn) : (s.pastFrame f).log = s.log := rfl

@[simp] theorem State.beginSwitch_pending (s : State) : (s.beginSwitch).pending = s.pending := rfl
@[simp] theorem State.beginSwitch_pins (s : State) : (s.beginSwitch).pins = s.pins := rfl
@[simp] theorem State.beginSwitch_timeBase (s : State) : (s.beginSwitch).timeBase = s.timeBase := rfl
@[simp] theorem State.beginSwitch_ports (s : State) : (s.beginSwitch).ports = s.ports := rfl
@[simp] theorem State.beginSwitch_groups (s : State) : (s.beginSwitch).groups = s.groups := rfl
@[simp] theorem State.beginSwitch_sources (s : State) : (s.beginSwitch).sources = s.sources := rfl
@[simp] theorem State.beginSwitch_pool (s : State) : (s.beginSwitch).pool = s.pool := rfl
@[simp] theorem State.beginSwitch_mg (s : State) : (s.beginSwitch).mg = s.mg := rfl
@[simp] theorem State.beginSwitch_faults (s : State) : (s.beginSwitch).faults = s.faults := rfl
@[simp] theorem State.beginSwitch_log (s : State) : (s.beginSwitch).log = s.log := rfl

@[simp] theorem State.drivePins_pending (s : State) : (s.drivePins).pending = s.pending := rfl
@[simp] theorem State.drivePins_timeBase (s : State) : (s.drivePins).timeBase = s.timeBase := rfl
@[simp] theorem State.drivePins_ports (s : State) : (s.drivePins).ports = s.ports := rfl
@[simp] theorem State.drivePins_groups (s : State) : (s.drivePins).groups = s.groups := rfl
@[simp] theorem State.drivePins_sources (s : State) : (s.drivePins).sources = s.sources := rfl
@[simp] theorem State.drivePins_pool (s : State) : (s.drivePins).pool = s.pool := rfl
@[simp] theorem State.drivePins_sw (s : State) : (s.drivePins).sw = s.sw := rfl
@[simp] theorem State.drivePins_mg (s : State) : (s.drivePins).mg = s.mg := rfl
@[simp] theorem State.drivePins_faults (s : State) : (s.drivePins).faults = s.faults := rfl
@[simp] theorem State.drivePins_log (s : State) : (s.drivePins).log = s.log := rfl

@[simp] theorem Port.setRow_staged (P : Port) (c : ClassNo) (r : Row) : (P.setRow c r).staged = P.staged := rfl
@[simp] theorem Port.setRow_locks (P : Port) (c : ClassNo) (r : Row) : (P.setRow c r).locks = P.locks := rfl
@[simp] theorem Port.setRow_commitStatus (P : Port) (c : ClassNo) (r : Row) : (P.setRow c r).commitStatus = P.commitStatus := rfl
@[simp] theorem Port.setRow_referenceGrade (P : Port) (c : ClassNo) (r : Row) : (P.setRow c r).referenceGrade = P.referenceGrade := rfl
@[simp] theorem Port.setRow_settings (P : Port) (c : ClassNo) (r : Row) : (P.setRow c r).settings = P.settings := rfl
@[simp] theorem Port.setRow_loadedPeriod (P : Port) (c : ClassNo) (r : Row) : (P.setRow c r).loadedPeriod = P.loadedPeriod := rfl
@[simp] theorem Port.setRow_accrualTimer (P : Port) (c : ClassNo) (r : Row) : (P.setRow c r).accrualTimer = P.accrualTimer := rfl
@[simp] theorem Port.setRow_awards (P : Port) (c : ClassNo) (r : Row) : (P.setRow c r).awards = P.awards := rfl
@[simp] theorem Port.setRow_pointers (P : Port) (c : ClassNo) (r : Row) : (P.setRow c r).pointers = P.pointers := rfl
@[simp] theorem Port.setRow_run (P : Port) (c : ClassNo) (r : Row) : (P.setRow c r).run = P.run := rfl
@[simp] theorem Port.setRow_mode (P : Port) (c : ClassNo) (r : Row) : (P.setRow c r).mode = P.mode := rfl
@[simp] theorem Port.setRow_grade (P : Port) (c : ClassNo) (r : Row) : (P.setRow c r).grade = P.grade := rfl
@[simp] theorem Port.setRow_stranded (P : Port) (c : ClassNo) (r : Row) : (P.setRow c r).stranded = P.stranded := rfl
@[simp] theorem Port.setRow_holdDownTimer (P : Port) (c : ClassNo) (r : Row) : (P.setRow c r).holdDownTimer = P.holdDownTimer := rfl
@[simp] theorem Port.setRow_counters (P : Port) (c : ClassNo) (r : Row) : (P.setRow c r).counters = P.counters := rfl

@[simp] theorem Port.mapRow_staged (P : Port) (c : ClassNo) (f : Row → Row) : (P.mapRow c f).staged = P.staged := rfl
@[simp] theorem Port.mapRow_locks (P : Port) (c : ClassNo) (f : Row → Row) : (P.mapRow c f).locks = P.locks := rfl
@[simp] theorem Port.mapRow_commitStatus (P : Port) (c : ClassNo) (f : Row → Row) : (P.mapRow c f).commitStatus = P.commitStatus := rfl
@[simp] theorem Port.mapRow_referenceGrade (P : Port) (c : ClassNo) (f : Row → Row) : (P.mapRow c f).referenceGrade = P.referenceGrade := rfl
@[simp] theorem Port.mapRow_settings (P : Port) (c : ClassNo) (f : Row → Row) : (P.mapRow c f).settings = P.settings := rfl
@[simp] theorem Port.mapRow_loadedPeriod (P : Port) (c : ClassNo) (f : Row → Row) : (P.mapRow c f).loadedPeriod = P.loadedPeriod := rfl
@[simp] theorem Port.mapRow_accrualTimer (P : Port) (c : ClassNo) (f : Row → Row) : (P.mapRow c f).accrualTimer = P.accrualTimer := rfl
@[simp] theorem Port.mapRow_awards (P : Port) (c : ClassNo) (f : Row → Row) : (P.mapRow c f).awards = P.awards := rfl
@[simp] theorem Port.mapRow_pointers (P : Port) (c : ClassNo) (f : Row → Row) : (P.mapRow c f).pointers = P.pointers := rfl
@[simp] theorem Port.mapRow_run (P : Port) (c : ClassNo) (f : Row → Row) : (P.mapRow c f).run = P.run := rfl
@[simp] theorem Port.mapRow_mode (P : Port) (c : ClassNo) (f : Row → Row) : (P.mapRow c f).mode = P.mode := rfl
@[simp] theorem Port.mapRow_grade (P : Port) (c : ClassNo) (f : Row → Row) : (P.mapRow c f).grade = P.grade := rfl
@[simp] theorem Port.mapRow_stranded (P : Port) (c : ClassNo) (f : Row → Row) : (P.mapRow c f).stranded = P.stranded := rfl
@[simp] theorem Port.mapRow_holdDownTimer (P : Port) (c : ClassNo) (f : Row → Row) : (P.mapRow c f).holdDownTimer = P.holdDownTimer := rfl
@[simp] theorem Port.mapRow_counters (P : Port) (c : ClassNo) (f : Row → Row) : (P.mapRow c f).counters = P.counters := rfl

@[simp] theorem Port.setStaged_active (P : Port) (c : ClassNo) (x : Contract) : (P.setStaged c x).active = P.active := rfl
@[simp] theorem Port.setStaged_locks (P : Port) (c : ClassNo) (x : Contract) : (P.setStaged c x).locks = P.locks := rfl
@[simp] theorem Port.setStaged_commitStatus (P : Port) (c : ClassNo) (x : Contract) : (P.setStaged c x).commitStatus = P.commitStatus := rfl
@[simp] theorem Port.setStaged_referenceGrade (P : Port) (c : ClassNo) (x : Contract) : (P.setStaged c x).referenceGrade = P.referenceGrade := rfl
@[simp] theorem Port.setStaged_settings (P : Port) (c : ClassNo) (x : Contract) : (P.setStaged c x).settings = P.settings := rfl
@[simp] theorem Port.setStaged_loadedPeriod (P : Port) (c : ClassNo) (x : Contract) : (P.setStaged c x).loadedPeriod = P.loadedPeriod := rfl
@[simp] theorem Port.setStaged_accrualTimer (P : Port) (c : ClassNo) (x : Contract) : (P.setStaged c x).accrualTimer = P.accrualTimer := rfl
@[simp] theorem Port.setStaged_awards (P : Port) (c : ClassNo) (x : Contract) : (P.setStaged c x).awards = P.awards := rfl
@[simp] theorem Port.setStaged_pointers (P : Port) (c : ClassNo) (x : Contract) : (P.setStaged c x).pointers = P.pointers := rfl
@[simp] theorem Port.setStaged_run (P : Port) (c : ClassNo) (x : Contract) : (P.setStaged c x).run = P.run := rfl
@[simp] theorem Port.setStaged_mode (P : Port) (c : ClassNo) (x : Contract) : (P.setStaged c x).mode = P.mode := rfl
@[simp] theorem Port.setStaged_grade (P : Port) (c : ClassNo) (x : Contract) : (P.setStaged c x).grade = P.grade := rfl
@[simp] theorem Port.setStaged_stranded (P : Port) (c : ClassNo) (x : Contract) : (P.setStaged c x).stranded = P.stranded := rfl
@[simp] theorem Port.setStaged_holdDownTimer (P : Port) (c : ClassNo) (x : Contract) : (P.setStaged c x).holdDownTimer = P.holdDownTimer := rfl
@[simp] theorem Port.setStaged_counters (P : Port) (c : ClassNo) (x : Contract) : (P.setStaged c x).counters = P.counters := rfl

@[simp] theorem Port.setLock_active (P : Port) (c : ClassNo) (l : LockCell) : (P.setLock c l).active = P.active := rfl
@[simp] theorem Port.setLock_staged (P : Port) (c : ClassNo) (l : LockCell) : (P.setLock c l).staged = P.staged := rfl
@[simp] theorem Port.setLock_commitStatus (P : Port) (c : ClassNo) (l : LockCell) : (P.setLock c l).commitStatus = P.commitStatus := rfl
@[simp] theorem Port.setLock_referenceGrade (P : Port) (c : ClassNo) (l : LockCell) : (P.setLock c l).referenceGrade = P.referenceGrade := rfl
@[simp] theorem Port.setLock_settings (P : Port) (c : ClassNo) (l : LockCell) : (P.setLock c l).settings = P.settings := rfl
@[simp] theorem Port.setLock_loadedPeriod (P : Port) (c : ClassNo) (l : LockCell) : (P.setLock c l).loadedPeriod = P.loadedPeriod := rfl
@[simp] theorem Port.setLock_accrualTimer (P : Port) (c : ClassNo) (l : LockCell) : (P.setLock c l).accrualTimer = P.accrualTimer := rfl
@[simp] theorem Port.setLock_awards (P : Port) (c : ClassNo) (l : LockCell) : (P.setLock c l).awards = P.awards := rfl
@[simp] theorem Port.setLock_pointers (P : Port) (c : ClassNo) (l : LockCell) : (P.setLock c l).pointers = P.pointers := rfl
@[simp] theorem Port.setLock_run (P : Port) (c : ClassNo) (l : LockCell) : (P.setLock c l).run = P.run := rfl
@[simp] theorem Port.setLock_mode (P : Port) (c : ClassNo) (l : LockCell) : (P.setLock c l).mode = P.mode := rfl
@[simp] theorem Port.setLock_grade (P : Port) (c : ClassNo) (l : LockCell) : (P.setLock c l).grade = P.grade := rfl
@[simp] theorem Port.setLock_stranded (P : Port) (c : ClassNo) (l : LockCell) : (P.setLock c l).stranded = P.stranded := rfl
@[simp] theorem Port.setLock_holdDownTimer (P : Port) (c : ClassNo) (l : LockCell) : (P.setLock c l).holdDownTimer = P.holdDownTimer := rfl
@[simp] theorem Port.setLock_counters (P : Port) (c : ClassNo) (l : LockCell) : (P.setLock c l).counters = P.counters := rfl

@[simp] theorem Port.clearQueues_staged (P : Port) : (P.clearQueues).staged = P.staged := rfl
@[simp] theorem Port.clearQueues_locks (P : Port) : (P.clearQueues).locks = P.locks := rfl
@[simp] theorem Port.clearQueues_commitStatus (P : Port) : (P.clearQueues).commitStatus = P.commitStatus := rfl
@[simp] theorem Port.clearQueues_referenceGrade (P : Port) : (P.clearQueues).referenceGrade = P.referenceGrade := rfl
@[simp] theorem Port.clearQueues_settings (P : Port) : (P.clearQueues).settings = P.settings := rfl
@[simp] theorem Port.clearQueues_loadedPeriod (P : Port) : (P.clearQueues).loadedPeriod = P.loadedPeriod := rfl
@[simp] theorem Port.clearQueues_accrualTimer (P : Port) : (P.clearQueues).accrualTimer = P.accrualTimer := rfl
@[simp] theorem Port.clearQueues_awards (P : Port) : (P.clearQueues).awards = P.awards := rfl
@[simp] theorem Port.clearQueues_pointers (P : Port) : (P.clearQueues).pointers = P.pointers := rfl
@[simp] theorem Port.clearQueues_run (P : Port) : (P.clearQueues).run = P.run := rfl
@[simp] theorem Port.clearQueues_mode (P : Port) : (P.clearQueues).mode = P.mode := rfl
@[simp] theorem Port.clearQueues_grade (P : Port) : (P.clearQueues).grade = P.grade := rfl
@[simp] theorem Port.clearQueues_stranded (P : Port) : (P.clearQueues).stranded = P.stranded := rfl
@[simp] theorem Port.clearQueues_holdDownTimer (P : Port) : (P.clearQueues).holdDownTimer = P.holdDownTimer := rfl
@[simp] theorem Port.clearQueues_counters (P : Port) : (P.clearQueues).counters = P.counters := rfl

@[simp] theorem Port.removeAward_active (P : Port) (tag : Tag) : (P.removeAward tag).active = P.active := rfl
@[simp] theorem Port.removeAward_staged (P : Port) (tag : Tag) : (P.removeAward tag).staged = P.staged := rfl
@[simp] theorem Port.removeAward_locks (P : Port) (tag : Tag) : (P.removeAward tag).locks = P.locks := rfl
@[simp] theorem Port.removeAward_commitStatus (P : Port) (tag : Tag) : (P.removeAward tag).commitStatus = P.commitStatus := rfl
@[simp] theorem Port.removeAward_referenceGrade (P : Port) (tag : Tag) : (P.removeAward tag).referenceGrade = P.referenceGrade := rfl
@[simp] theorem Port.removeAward_settings (P : Port) (tag : Tag) : (P.removeAward tag).settings = P.settings := rfl
@[simp] theorem Port.removeAward_loadedPeriod (P : Port) (tag : Tag) : (P.removeAward tag).loadedPeriod = P.loadedPeriod := rfl
@[simp] theorem Port.removeAward_accrualTimer (P : Port) (tag : Tag) : (P.removeAward tag).accrualTimer = P.accrualTimer := rfl
@[simp] theorem Port.removeAward_pointers (P : Port) (tag : Tag) : (P.removeAward tag).pointers = P.pointers := rfl
@[simp] theorem Port.removeAward_run (P : Port) (tag : Tag) : (P.removeAward tag).run = P.run := rfl
@[simp] theorem Port.removeAward_mode (P : Port) (tag : Tag) : (P.removeAward tag).mode = P.mode := rfl
@[simp] theorem Port.removeAward_grade (P : Port) (tag : Tag) : (P.removeAward tag).grade = P.grade := rfl
@[simp] theorem Port.removeAward_stranded (P : Port) (tag : Tag) : (P.removeAward tag).stranded = P.stranded := rfl
@[simp] theorem Port.removeAward_holdDownTimer (P : Port) (tag : Tag) : (P.removeAward tag).holdDownTimer = P.holdDownTimer := rfl
@[simp] theorem Port.removeAward_counters (P : Port) (tag : Tag) : (P.removeAward tag).counters = P.counters := rfl

@[simp] theorem Port.count_active (P : Port) (ev : CounterEvent) (cls : Option ClassNo) (n : Nat) : (P.count ev cls n).active = P.active := rfl
@[simp] theorem Port.count_staged (P : Port) (ev : CounterEvent) (cls : Option ClassNo) (n : Nat) : (P.count ev cls n).staged = P.staged := rfl
@[simp] theorem Port.count_locks (P : Port) (ev : CounterEvent) (cls : Option ClassNo) (n : Nat) : (P.count ev cls n).locks = P.locks := rfl
@[simp] theorem Port.count_commitStatus (P : Port) (ev : CounterEvent) (cls : Option ClassNo) (n : Nat) : (P.count ev cls n).commitStatus = P.commitStatus := rfl
@[simp] theorem Port.count_referenceGrade (P : Port) (ev : CounterEvent) (cls : Option ClassNo) (n : Nat) : (P.count ev cls n).referenceGrade = P.referenceGrade := rfl
@[simp] theorem Port.count_settings (P : Port) (ev : CounterEvent) (cls : Option ClassNo) (n : Nat) : (P.count ev cls n).settings = P.settings := rfl
@[simp] theorem Port.count_loadedPeriod (P : Port) (ev : CounterEvent) (cls : Option ClassNo) (n : Nat) : (P.count ev cls n).loadedPeriod = P.loadedPeriod := rfl
@[simp] theorem Port.count_accrualTimer (P : Port) (ev : CounterEvent) (cls : Option ClassNo) (n : Nat) : (P.count ev cls n).accrualTimer = P.accrualTimer := rfl
@[simp] theorem Port.count_awards (P : Port) (ev : CounterEvent) (cls : Option ClassNo) (n : Nat) : (P.count ev cls n).awards = P.awards := rfl
@[simp] theorem Port.count_pointers (P : Port) (ev : CounterEvent) (cls : Option ClassNo) (n : Nat) : (P.count ev cls n).pointers = P.pointers := rfl
@[simp] theorem Port.count_run (P : Port) (ev : CounterEvent) (cls : Option ClassNo) (n : Nat) : (P.count ev cls n).run = P.run := rfl
@[simp] theorem Port.count_mode (P : Port) (ev : CounterEvent) (cls : Option ClassNo) (n : Nat) : (P.count ev cls n).mode = P.mode := rfl
@[simp] theorem Port.count_grade (P : Port) (ev : CounterEvent) (cls : Option ClassNo) (n : Nat) : (P.count ev cls n).grade = P.grade := rfl
@[simp] theorem Port.count_stranded (P : Port) (ev : CounterEvent) (cls : Option ClassNo) (n : Nat) : (P.count ev cls n).stranded = P.stranded := rfl
@[simp] theorem Port.count_holdDownTimer (P : Port) (ev : CounterEvent) (cls : Option ClassNo) (n : Nat) : (P.count ev cls n).holdDownTimer = P.holdDownTimer := rfl

@[simp] theorem Port.recomputeShares_staged (P : Port) (g : Grade) : (P.recomputeShares g).staged = P.staged := rfl
@[simp] theorem Port.recomputeShares_locks (P : Port) (g : Grade) : (P.recomputeShares g).locks = P.locks := rfl
@[simp] theorem Port.recomputeShares_commitStatus (P : Port) (g : Grade) : (P.recomputeShares g).commitStatus = P.commitStatus := rfl
@[simp] theorem Port.recomputeShares_settings (P : Port) (g : Grade) : (P.recomputeShares g).settings = P.settings := rfl
@[simp] theorem Port.recomputeShares_loadedPeriod (P : Port) (g : Grade) : (P.recomputeShares g).loadedPeriod = P.loadedPeriod := rfl
@[simp] theorem Port.recomputeShares_accrualTimer (P : Port) (g : Grade) : (P.recomputeShares g).accrualTimer = P.accrualTimer := rfl
@[simp] theorem Port.recomputeShares_awards (P : Port) (g : Grade) : (P.recomputeShares g).awards = P.awards := rfl
@[simp] theorem Port.recomputeShares_pointers (P : Port) (g : Grade) : (P.recomputeShares g).pointers = P.pointers := rfl
@[simp] theorem Port.recomputeShares_run (P : Port) (g : Grade) : (P.recomputeShares g).run = P.run := rfl
@[simp] theorem Port.recomputeShares_mode (P : Port) (g : Grade) : (P.recomputeShares g).mode = P.mode := rfl
@[simp] theorem Port.recomputeShares_grade (P : Port) (g : Grade) : (P.recomputeShares g).grade = P.grade := rfl
@[simp] theorem Port.recomputeShares_stranded (P : Port) (g : Grade) : (P.recomputeShares g).stranded = P.stranded := rfl
@[simp] theorem Port.recomputeShares_holdDownTimer (P : Port) (g : Grade) : (P.recomputeShares g).holdDownTimer = P.holdDownTimer := rfl
@[simp] theorem Port.recomputeShares_counters (P : Port) (g : Grade) : (P.recomputeShares g).counters = P.counters := rfl

@[simp] theorem Port.accrue_staged (P : Port) : (P.accrue).staged = P.staged := rfl
@[simp] theorem Port.accrue_locks (P : Port) : (P.accrue).locks = P.locks := rfl
@[simp] theorem Port.accrue_commitStatus (P : Port) : (P.accrue).commitStatus = P.commitStatus := rfl
@[simp] theorem Port.accrue_referenceGrade (P : Port) : (P.accrue).referenceGrade = P.referenceGrade := rfl
@[simp] theorem Port.accrue_settings (P : Port) : (P.accrue).settings = P.settings := rfl
@[simp] theorem Port.accrue_loadedPeriod (P : Port) : (P.accrue).loadedPeriod = P.loadedPeriod := rfl
@[simp] theorem Port.accrue_accrualTimer (P : Port) : (P.accrue).accrualTimer = P.accrualTimer := rfl
@[simp] theorem Port.accrue_awards (P : Port) : (P.accrue).awards = P.awards := rfl
@[simp] theorem Port.accrue_pointers (P : Port) : (P.accrue).pointers = P.pointers := rfl
@[simp] theorem Port.accrue_run (P : Port) : (P.accrue).run = P.run := rfl
@[simp] theorem Port.accrue_mode (P : Port) : (P.accrue).mode = P.mode := rfl
@[simp] theorem Port.accrue_grade (P : Port) : (P.accrue).grade = P.grade := rfl
@[simp] theorem Port.accrue_stranded (P : Port) : (P.accrue).stranded = P.stranded := rfl
@[simp] theorem Port.accrue_holdDownTimer (P : Port) : (P.accrue).holdDownTimer = P.holdDownTimer := rfl
@[simp] theorem Port.accrue_counters (P : Port) : (P.accrue).counters = P.counters := rfl

@[simp] theorem Port.reload_active (P : Port) : (P.reload).active = P.active := rfl
@[simp] theorem Port.reload_staged (P : Port) : (P.reload).staged = P.staged := rfl
@[simp] theorem Port.reload_locks (P : Port) : (P.reload).locks = P.locks := rfl
@[simp] theorem Port.reload_commitStatus (P : Port) : (P.reload).commitStatus = P.commitStatus := rfl
@[simp] theorem Port.reload_referenceGrade (P : Port) : (P.reload).referenceGrade = P.referenceGrade := rfl
@[simp] theorem Port.reload_settings (P : Port) : (P.reload).settings = P.settings := rfl
@[simp] theorem Port.reload_awards (P : Port) : (P.reload).awards = P.awards := rfl
@[simp] theorem Port.reload_pointers (P : Port) : (P.reload).pointers = P.pointers := rfl
@[simp] theorem Port.reload_run (P : Port) : (P.reload).run = P.run := rfl
@[simp] theorem Port.reload_mode (P : Port) : (P.reload).mode = P.mode := rfl
@[simp] theorem Port.reload_grade (P : Port) : (P.reload).grade = P.grade := rfl
@[simp] theorem Port.reload_stranded (P : Port) : (P.reload).stranded = P.stranded := rfl
@[simp] theorem Port.reload_holdDownTimer (P : Port) : (P.reload).holdDownTimer = P.holdDownTimer := rfl
@[simp] theorem Port.reload_counters (P : Port) : (P.reload).counters = P.counters := rfl

@[simp] theorem Port.removeQueued_staged (P : Port) (c : ClassNo) (tag : Tag) : (P.removeQueued c tag).staged = P.staged := rfl
@[simp] theorem Port.removeQueued_locks (P : Port) (c : ClassNo) (tag : Tag) : (P.removeQueued c tag).locks = P.locks := rfl
@[simp] theorem Port.removeQueued_commitStatus (P : Port) (c : ClassNo) (tag : Tag) : (P.removeQueued c tag).commitStatus = P.commitStatus := rfl
@[simp] theorem Port.removeQueued_referenceGrade (P : Port) (c : ClassNo) (tag : Tag) : (P.removeQueued c tag).referenceGrade = P.referenceGrade := rfl
@[simp] theorem Port.removeQueued_settings (P : Port) (c : ClassNo) (tag : Tag) : (P.removeQueued c tag).settings = P.settings := rfl
@[simp] theorem Port.removeQueued_loadedPeriod (P : Port) (c : ClassNo) (tag : Tag) : (P.removeQueued c tag).loadedPeriod = P.loadedPeriod := rfl
@[simp] theorem Port.removeQueued_accrualTimer (P : Port) (c : ClassNo) (tag : Tag) : (P.removeQueued c tag).accrualTimer = P.accrualTimer := rfl
@[simp] theorem Port.removeQueued_awards (P : Port) (c : ClassNo) (tag : Tag) : (P.removeQueued c tag).awards = P.awards := rfl
@[simp] theorem Port.removeQueued_pointers (P : Port) (c : ClassNo) (tag : Tag) : (P.removeQueued c tag).pointers = P.pointers := rfl
@[simp] theorem Port.removeQueued_run (P : Port) (c : ClassNo) (tag : Tag) : (P.removeQueued c tag).run = P.run := rfl
@[simp] theorem Port.removeQueued_mode (P : Port) (c : ClassNo) (tag : Tag) : (P.removeQueued c tag).mode = P.mode := rfl
@[simp] theorem Port.removeQueued_grade (P : Port) (c : ClassNo) (tag : Tag) : (P.removeQueued c tag).grade = P.grade := rfl
@[simp] theorem Port.removeQueued_stranded (P : Port) (c : ClassNo) (tag : Tag) : (P.removeQueued c tag).stranded = P.stranded := rfl
@[simp] theorem Port.removeQueued_holdDownTimer (P : Port) (c : ClassNo) (tag : Tag) : (P.removeQueued c tag).holdDownTimer = P.holdDownTimer := rfl
@[simp] theorem Port.removeQueued_counters (P : Port) (c : ClassNo) (tag : Tag) : (P.removeQueued c tag).counters = P.counters := rfl
/-! ## Reads after a write -/

@[simp] theorem State.port_setPort_same (s : State) (p : PortNo) (P : Port) : (s.setPort p P).port p = P := by
  simp [State.port, State.setPort]

theorem State.port_setPort_ne (s : State) {p q : PortNo} (P : Port) (h : q ≠ p) : (s.setPort p P).port q = s.port q := by
  have : p.val ≠ q.val := fun e => h (Fin.ext e.symm)
  simp [State.port, State.setPort, this]

theorem State.port_setPort (s : State) (p q : PortNo) (P : Port) :
    (s.setPort p P).port q = if q = p then P else s.port q := by
  split
  · subst_vars; simp
  · rename_i h; exact s.port_setPort_ne P h

@[simp] theorem State.port_mapPort_same (s : State) (p : PortNo) (f : Port → Port) :
    (s.mapPort p f).port p = f (s.port p) := by simp [State.mapPort]

theorem State.port_mapPort_ne (s : State) {p q : PortNo} (f : Port → Port) (h : q ≠ p) :
    (s.mapPort p f).port q = s.port q := s.port_setPort_ne _ h

theorem State.port_mapPort (s : State) (p q : PortNo) (f : Port → Port) :
    (s.mapPort p f).port q = if q = p then f (s.port p) else s.port q := s.port_setPort p q _

@[simp] theorem State.source_setSource_same (s : State) (e : EntryNo) (x : SourceEntry) :
    (s.setSource e x).source e = x := by simp [State.source, State.setSource]

theorem State.source_setSource (s : State) (e d : EntryNo) (x : SourceEntry) :
    (s.setSource e x).source d = if d = e then x else s.source d := by
  split
  · subst_vars; simp
  · rename_i h
    have : e.val ≠ d.val := fun k => h (Fin.ext k.symm)
    simp [State.source, State.setSource, this]

@[simp] theorem Port.row_setRow_same (P : Port) (c : ClassNo) (r : Row) : (P.setRow c r).row c = r := by
  simp [Port.row, Port.setRow]

theorem Port.row_setRow (P : Port) (c d : ClassNo) (r : Row) :
    (P.setRow c r).row d = if d = c then r else P.row d := by
  split
  · subst_vars; simp
  · rename_i h
    have : c.val ≠ d.val := fun k => h (Fin.ext k.symm)
    simp [Port.row, Port.setRow, this]

theorem Port.row_mapRow (P : Port) (c d : ClassNo) (f : Row → Row) :
    (P.mapRow c f).row d = if d = c then f (P.row c) else P.row d := P.row_setRow c d _

theorem Port.stagedRow_setStaged (P : Port) (c d : ClassNo) (x : Contract) :
    (P.setStaged c x).stagedRow d = if d = c then x else P.stagedRow d := by
  split
  · subst_vars; simp [Port.stagedRow, Port.setStaged]
  · rename_i h
    have : c.val ≠ d.val := fun k => h (Fin.ext k.symm)
    simp [Port.stagedRow, Port.setStaged, this]

theorem Port.lockCell_setLock (P : Port) (c d : ClassNo) (l : LockCell) :
    (P.setLock c l).lockCell d = if d = c then l else P.lockCell d := by
  split
  · subst_vars; simp [Port.lockCell, Port.setLock]
  · rename_i h
    have : c.val ≠ d.val := fun k => h (Fin.ext k.symm)
    simp [Port.lockCell, Port.setLock, this]

@[simp] theorem Port.row_clearQueues (P : Port) (c : ClassNo) :
    P.clearQueues.row c = { P.row c with queue := [] } := by simp [Port.row, Port.clearQueues]

@[simp] theorem State.port_elapse (n : Nat) (s : State) (p : PortNo) : (s.elapse n).port p = (s.port p).elapse n := by
  simp [State.port, State.elapse]

/-! Reads that depend on one field of the state only. -/

theorem State.port_congr {s t : State} (h : t.ports = s.ports) (p : PortNo) : t.port p = s.port p := by
  simp [State.port, h]

theorem State.source_congr {s t : State} (h : t.sources = s.sources) (e : EntryNo) : t.source e = s.source e := by
  simp [State.source, h]

theorem Port.row_congr {P Q : Port} (h : Q.active = P.active) (c : ClassNo) : Q.row c = P.row c := by
  simp [Port.row, h]

/-- Ports that agree at every number are the same. -/
theorem State.ports_ext {s t : State} (h : ∀ p, t.port p = s.port p) : t.ports = s.ports := by
  apply Vector.ext
  intro i hi
  exact h ⟨i, hi⟩

end Sys2Proof.Machine
end

