-- ==== Sys2Proof/Laws/Ops.lean ====
section
/-! SUPPORT. What each shared operation leaves unchanged, field by field: the lemmas that later proofs cite in place of
unfolding the operation. -/

namespace Sys2Proof.Machine

/-! ## Notices and faults: only the management link unit, and the fault record, change -/

@[simp] theorem State.callNotice_pending (s : State) : (s.callNotice).pending = s.pending := by
  unfold State.callNotice; split <;> rfl
@[simp] theorem State.callNotice_pins (s : State) : (s.callNotice).pins = s.pins := by
  unfold State.callNotice; split <;> rfl
@[simp] theorem State.callNotice_timeBase (s : State) : (s.callNotice).timeBase = s.timeBase := by
  unfold State.callNotice; split <;> rfl
@[simp] theorem State.callNotice_ports (s : State) : (s.callNotice).ports = s.ports := by
  unfold State.callNotice; split <;> rfl
@[simp] theorem State.callNotice_groups (s : State) : (s.callNotice).groups = s.groups := by
  unfold State.callNotice; split <;> rfl
@[simp] theorem State.callNotice_sources (s : State) : (s.callNotice).sources = s.sources := by
  unfold State.callNotice; split <;> rfl
@[simp] theorem State.callNotice_pool (s : State) : (s.callNotice).pool = s.pool := by
  unfold State.callNotice; split <;> rfl
@[simp] theorem State.callNotice_sw (s : State) : (s.callNotice).sw = s.sw := by
  unfold State.callNotice; split <;> rfl
@[simp] theorem State.callNotice_faults (s : State) : (s.callNotice).faults = s.faults := by
  unfold State.callNotice; split <;> rfl
@[simp] theorem State.callNotice_log (s : State) : (s.callNotice).log = s.log := by
  unfold State.callNotice; split <;> rfl

@[simp] theorem State.noticeCause_pending (s : State) (k : NoticeKind) : (s.noticeCause k).pending = s.pending := by
  unfold State.noticeCause; dsimp only; split <;> simp
@[simp] theorem State.noticeCause_pins (s : State) (k : NoticeKind) : (s.noticeCause k).pins = s.pins := by
  unfold State.noticeCause; dsimp only; split <;> simp
@[simp] theorem State.noticeCause_timeBase (s : State) (k : NoticeKind) : (s.noticeCause k).timeBase = s.timeBase := by
  unfold State.noticeCause; dsimp only; split <;> simp
@[simp] theorem State.noticeCause_ports (s : State) (k : NoticeKind) : (s.noticeCause k).ports = s.ports := by
  unfold State.noticeCause; dsimp only; split <;> simp
@[simp] theorem State.noticeCause_groups (s : State) (k : NoticeKind) : (s.noticeCause k).groups = s.groups := by
  unfold State.noticeCause; dsimp only; split <;> simp
@[simp] theorem State.noticeCause_sources (s : State) (k : NoticeKind) : (s.noticeCause k).sources = s.sources := by
  unfold State.noticeCause; dsimp only; split <;> simp
@[simp] theorem State.noticeCause_pool (s : State) (k : NoticeKind) : (s.noticeCause k).pool = s.pool := by
  unfold State.noticeCause; dsimp only; split <;> simp
@[simp] theorem State.noticeCause_sw (s : State) (k : NoticeKind) : (s.noticeCause k).sw = s.sw := by
  unfold State.noticeCause; dsimp only; split <;> simp
@[simp] theorem State.noticeCause_faults (s : State) (k : NoticeKind) : (s.noticeCause k).faults = s.faults := by
  unfold State.noticeCause; dsimp only; split <;> simp
@[simp] theorem State.noticeCause_log (s : State) (k : NoticeKind) : (s.noticeCause k).log = s.log := by
  unfold State.noticeCause; dsimp only; split <;> simp

@[simp] theorem State.gradeCause_pending (s : State) (p : PortNo) : (s.gradeCause p).pending = s.pending := by
  simp [State.gradeCause]
@[simp] theorem State.gradeCause_pins (s : State) (p : PortNo) : (s.gradeCause p).pins = s.pins := by
  simp [State.gradeCause]
@[simp] theorem State.gradeCause_timeBase (s : State) (p : PortNo) : (s.gradeCause p).timeBase = s.timeBase := by
  simp [State.gradeCause]
@[simp] theorem State.gradeCause_ports (s : State) (p : PortNo) : (s.gradeCause p).ports = s.ports := by
  simp [State.gradeCause]
@[simp] theorem State.gradeCause_groups (s : State) (p : PortNo) : (s.gradeCause p).groups = s.groups := by
  simp [State.gradeCause]
@[simp] theorem State.gradeCause_sources (s : State) (p : PortNo) : (s.gradeCause p).sources = s.sources := by
  simp [State.gradeCause]
@[simp] theorem State.gradeCause_pool (s : State) (p : PortNo) : (s.gradeCause p).pool = s.pool := by
  simp [State.gradeCause]
@[simp] theorem State.gradeCause_sw (s : State) (p : PortNo) : (s.gradeCause p).sw = s.sw := by
  simp [State.gradeCause]
@[simp] theorem State.gradeCause_faults (s : State) (p : PortNo) : (s.gradeCause p).faults = s.faults := by
  simp [State.gradeCause]
@[simp] theorem State.gradeCause_log (s : State) (p : PortNo) : (s.gradeCause p).log = s.log := by
  simp [State.gradeCause]

@[simp] theorem State.strandCause_pending (s : State) (p : PortNo) : (s.strandCause p).pending = s.pending := by
  simp [State.strandCause]
@[simp] theorem State.strandCause_pins (s : State) (p : PortNo) : (s.strandCause p).pins = s.pins := by
  simp [State.strandCause]
@[simp] theorem State.strandCause_timeBase (s : State) (p : PortNo) : (s.strandCause p).timeBase = s.timeBase := by
  simp [State.strandCause]
@[simp] theorem State.strandCause_ports (s : State) (p : PortNo) : (s.strandCause p).ports = s.ports := by
  simp [State.strandCause]
@[simp] theorem State.strandCause_groups (s : State) (p : PortNo) : (s.strandCause p).groups = s.groups := by
  simp [State.strandCause]
@[simp] theorem State.strandCause_sources (s : State) (p : PortNo) : (s.strandCause p).sources = s.sources := by
  simp [State.strandCause]
@[simp] theorem State.strandCause_pool (s : State) (p : PortNo) : (s.strandCause p).pool = s.pool := by
  simp [State.strandCause]
@[simp] theorem State.strandCause_sw (s : State) (p : PortNo) : (s.strandCause p).sw = s.sw := by
  simp [State.strandCause]
@[simp] theorem State.strandCause_faults (s : State) (p : PortNo) : (s.strandCause p).faults = s.faults := by
  simp [State.strandCause]
@[simp] theorem State.strandCause_log (s : State) (p : PortNo) : (s.strandCause p).log = s.log := by
  simp [State.strandCause]

@[simp] theorem State.reportFault_pending (s : State) (f : FaultReport) : (s.reportFault f).pending = s.pending := by
  simp only [State.reportFault]; split <;> simp
@[simp] theorem State.reportFault_pins (s : State) (f : FaultReport) : (s.reportFault f).pins = s.pins := by
  simp only [State.reportFault]; split <;> simp
@[simp] theorem State.reportFault_timeBase (s : State) (f : FaultReport) : (s.reportFault f).timeBase = s.timeBase := by
  simp only [State.reportFault]; split <;> simp
@[simp] theorem State.reportFault_ports (s : State) (f : FaultReport) : (s.reportFault f).ports = s.ports := by
  simp only [State.reportFault]; split <;> simp
@[simp] theorem State.reportFault_groups (s : State) (f : FaultReport) : (s.reportFault f).groups = s.groups := by
  simp only [State.reportFault]; split <;> simp
@[simp] theorem State.reportFault_sources (s : State) (f : FaultReport) : (s.reportFault f).sources = s.sources := by
  simp only [State.reportFault]; split <;> simp
@[simp] theorem State.reportFault_pool (s : State) (f : FaultReport) : (s.reportFault f).pool = s.pool := by
  simp only [State.reportFault]; split <;> simp
@[simp] theorem State.reportFault_sw (s : State) (f : FaultReport) : (s.reportFault f).sw = s.sw := by
  simp only [State.reportFault]; split <;> simp
@[simp] theorem State.reportFault_log (s : State) (f : FaultReport) : (s.reportFault f).log = s.log := by
  simp only [State.reportFault]; split <;> simp

/-! ## The pool and its records -/

@[simp] theorem State.evaluatePause_pending (s : State) : (s.evaluatePause).pending = s.pending := by
  unfold State.evaluatePause; dsimp only; split <;> simp
@[simp] theorem State.evaluatePause_pins (s : State) : (s.evaluatePause).pins = s.pins := by
  unfold State.evaluatePause; dsimp only; split <;> simp
@[simp] theorem State.evaluatePause_timeBase (s : State) : (s.evaluatePause).timeBase = s.timeBase := by
  unfold State.evaluatePause; dsimp only; split <;> simp
@[simp] theorem State.evaluatePause_ports (s : State) : (s.evaluatePause).ports = s.ports := by
  unfold State.evaluatePause; dsimp only; split <;> simp
@[simp] theorem State.evaluatePause_groups (s : State) : (s.evaluatePause).groups = s.groups := by
  unfold State.evaluatePause; dsimp only; split <;> simp
@[simp] theorem State.evaluatePause_sources (s : State) : (s.evaluatePause).sources = s.sources := by
  unfold State.evaluatePause; dsimp only; split <;> simp
@[simp] theorem State.evaluatePause_sw (s : State) : (s.evaluatePause).sw = s.sw := by
  unfold State.evaluatePause; dsimp only; split <;> simp
@[simp] theorem State.evaluatePause_faults (s : State) : (s.evaluatePause).faults = s.faults := by
  unfold State.evaluatePause; dsimp only; split <;> simp
@[simp] theorem State.evaluatePause_log (s : State) : (s.evaluatePause).log = s.log := by
  unfold State.evaluatePause; dsimp only; split <;> simp

@[simp] theorem State.returnRecord_pending (s : State) (r : BidRecord) : (s.returnRecord r).pending = s.pending := by
  simp [State.returnRecord]
@[simp] theorem State.returnRecord_pins (s : State) (r : BidRecord) : (s.returnRecord r).pins = s.pins := by
  simp [State.returnRecord]
@[simp] theorem State.returnRecord_timeBase (s : State) (r : BidRecord) : (s.returnRecord r).timeBase = s.timeBase := by
  simp [State.returnRecord]
@[simp] theorem State.returnRecord_ports (s : State) (r : BidRecord) : (s.returnRecord r).ports = s.ports := by
  simp [State.returnRecord]
@[simp] theorem State.returnRecord_groups (s : State) (r : BidRecord) : (s.returnRecord r).groups = s.groups := by
  simp [State.returnRecord]
@[simp] theorem State.returnRecord_sw (s : State) (r : BidRecord) : (s.returnRecord r).sw = s.sw := by
  simp [State.returnRecord]
@[simp] theorem State.returnRecord_faults (s : State) (r : BidRecord) : (s.returnRecord r).faults = s.faults := by
  simp [State.returnRecord]
@[simp] theorem State.returnRecord_log (s : State) (r : BidRecord) : (s.returnRecord r).log = s.log := by
  simp [State.returnRecord]

@[simp] theorem State.returnRecords_pending (s : State) (rs : List BidRecord) : (s.returnRecords rs).pending = s.pending := by
  induction rs generalizing s with
  | nil => rfl
  | cons r rs ih => exact (ih (s.returnRecord r)).trans (by simp)
@[simp] theorem State.returnRecords_pins (s : State) (rs : List BidRecord) : (s.returnRecords rs).pins = s.pins := by
  induction rs generalizing s with
  | nil => rfl
  | cons r rs ih => exact (ih (s.returnRecord r)).trans (by simp)
@[simp] theorem State.returnRecords_timeBase (s : State) (rs : List BidRecord) : (s.returnRecords rs).timeBase = s.timeBase := by
  induction rs generalizing s with
  | nil => rfl
  | cons r rs ih => exact (ih (s.returnRecord r)).trans (by simp)
@[simp] theorem State.returnRecords_ports (s : State) (rs : List BidRecord) : (s.returnRecords rs).ports = s.ports := by
  induction rs generalizing s with
  | nil => rfl
  | cons r rs ih => exact (ih (s.returnRecord r)).trans (by simp)
@[simp] theorem State.returnRecords_groups (s : State) (rs : List BidRecord) : (s.returnRecords rs).groups = s.groups := by
  induction rs generalizing s with
  | nil => rfl
  | cons r rs ih => exact (ih (s.returnRecord r)).trans (by simp)
@[simp] theorem State.returnRecords_sw (s : State) (rs : List BidRecord) : (s.returnRecords rs).sw = s.sw := by
  induction rs generalizing s with
  | nil => rfl
  | cons r rs ih => exact (ih (s.returnRecord r)).trans (by simp)
@[simp] theorem State.returnRecords_faults (s : State) (rs : List BidRecord) : (s.returnRecords rs).faults = s.faults := by
  induction rs generalizing s with
  | nil => rfl
  | cons r rs ih => exact (ih (s.returnRecord r)).trans (by simp)
@[simp] theorem State.returnRecords_log (s : State) (rs : List BidRecord) : (s.returnRecords rs).log = s.log := by
  induction rs generalizing s with
  | nil => rfl
  | cons r rs ih => exact (ih (s.returnRecord r)).trans (by simp)

@[simp] theorem State.declineRecord_pending (s : State) (p : PortNo) (c : Cause) (r : BidRecord) : (State.declineRecord p c s r).pending = s.pending := by
  unfold State.declineRecord; dsimp only; split <;> simp
@[simp] theorem State.declineRecord_pins (s : State) (p : PortNo) (c : Cause) (r : BidRecord) : (State.declineRecord p c s r).pins = s.pins := by
  unfold State.declineRecord; dsimp only; split <;> simp
@[simp] theorem State.declineRecord_timeBase (s : State) (p : PortNo) (c : Cause) (r : BidRecord) : (State.declineRecord p c s r).timeBase = s.timeBase := by
  unfold State.declineRecord; dsimp only; split <;> simp
@[simp] theorem State.declineRecord_groups (s : State) (p : PortNo) (c : Cause) (r : BidRecord) : (State.declineRecord p c s r).groups = s.groups := by
  unfold State.declineRecord; dsimp only; split <;> simp
@[simp] theorem State.declineRecord_faults (s : State) (p : PortNo) (c : Cause) (r : BidRecord) : (State.declineRecord p c s r).faults = s.faults := by
  unfold State.declineRecord; dsimp only; split <;> simp
@[simp] theorem State.declineRecord_log (s : State) (p : PortNo) (c : Cause) (r : BidRecord) : (State.declineRecord p c s r).log = s.log := by
  unfold State.declineRecord; dsimp only; split <;> simp

@[simp] theorem State.declineRecords_pending (s : State) (p : PortNo) (c : Cause) (rs : List BidRecord) : (s.declineRecords p c rs).pending = s.pending := by
  induction rs generalizing s with
  | nil => rfl
  | cons r rs ih => exact (ih (State.declineRecord p c s r)).trans (by simp)
@[simp] theorem State.declineRecords_pins (s : State) (p : PortNo) (c : Cause) (rs : List BidRecord) : (s.declineRecords p c rs).pins = s.pins := by
  induction rs generalizing s with
  | nil => rfl
  | cons r rs ih => exact (ih (State.declineRecord p c s r)).trans (by simp)
@[simp] theorem State.declineRecords_timeBase (s : State) (p : PortNo) (c : Cause) (rs : List BidRecord) : (s.declineRecords p c rs).timeBase = s.timeBase := by
  induction rs generalizing s with
  | nil => rfl
  | cons r rs ih => exact (ih (State.declineRecord p c s r)).trans (by simp)
@[simp] theorem State.declineRecords_groups (s : State) (p : PortNo) (c : Cause) (rs : List BidRecord) : (s.declineRecords p c rs).groups = s.groups := by
  induction rs generalizing s with
  | nil => rfl
  | cons r rs ih => exact (ih (State.declineRecord p c s r)).trans (by simp)
@[simp] theorem State.declineRecords_faults (s : State) (p : PortNo) (c : Cause) (rs : List BidRecord) : (s.declineRecords p c rs).faults = s.faults := by
  induction rs generalizing s with
  | nil => rfl
  | cons r rs ih => exact (ih (State.declineRecord p c s r)).trans (by simp)
@[simp] theorem State.declineRecords_log (s : State) (p : PortNo) (c : Cause) (rs : List BidRecord) : (s.declineRecords p c rs).log = s.log := by
  induction rs generalizing s with
  | nil => rfl
  | cons r rs ih => exact (ih (State.declineRecord p c s r)).trans (by simp)

@[simp] theorem State.declineQueues_pending (s : State) (p : PortNo) (c : Cause) : (s.declineQueues p c).pending = s.pending := by
  simp [State.declineQueues]
@[simp] theorem State.declineQueues_pins (s : State) (p : PortNo) (c : Cause) : (s.declineQueues p c).pins = s.pins := by
  simp [State.declineQueues]
@[simp] theorem State.declineQueues_timeBase (s : State) (p : PortNo) (c : Cause) : (s.declineQueues p c).timeBase = s.timeBase := by
  simp [State.declineQueues]
@[simp] theorem State.declineQueues_groups (s : State) (p : PortNo) (c : Cause) : (s.declineQueues p c).groups = s.groups := by
  simp [State.declineQueues]
@[simp] theorem State.declineQueues_faults (s : State) (p : PortNo) (c : Cause) : (s.declineQueues p c).faults = s.faults := by
  simp [State.declineQueues]
@[simp] theorem State.declineQueues_log (s : State) (p : PortNo) (c : Cause) : (s.declineQueues p c).log = s.log := by
  simp [State.declineQueues]

@[simp] theorem State.dropRecords_pending (s : State) (p : PortNo) : (s.dropRecords p).pending = s.pending := by
  simp [State.dropRecords]
@[simp] theorem State.dropRecords_pins (s : State) (p : PortNo) : (s.dropRecords p).pins = s.pins := by
  simp [State.dropRecords]
@[simp] theorem State.dropRecords_timeBase (s : State) (p : PortNo) : (s.dropRecords p).timeBase = s.timeBase := by
  simp [State.dropRecords]
@[simp] theorem State.dropRecords_groups (s : State) (p : PortNo) : (s.dropRecords p).groups = s.groups := by
  simp [State.dropRecords]
@[simp] theorem State.dropRecords_sw (s : State) (p : PortNo) : (s.dropRecords p).sw = s.sw := by
  simp [State.dropRecords]
@[simp] theorem State.dropRecords_faults (s : State) (p : PortNo) : (s.dropRecords p).faults = s.faults := by
  simp [State.dropRecords]
@[simp] theorem State.dropRecords_log (s : State) (p : PortNo) : (s.dropRecords p).log = s.log := by
  simp [State.dropRecords]

/-! ## Awards and opportunities -/

@[simp] theorem State.writeLog_pending (s : State) (en : LogEntry) : (s.writeLog en).pending = s.pending := by
  unfold State.writeLog; dsimp only; split <;> simp
@[simp] theorem State.writeLog_pins (s : State) (en : LogEntry) : (s.writeLog en).pins = s.pins := by
  unfold State.writeLog; dsimp only; split <;> simp
@[simp] theorem State.writeLog_timeBase (s : State) (en : LogEntry) : (s.writeLog en).timeBase = s.timeBase := by
  unfold State.writeLog; dsimp only; split <;> simp
@[simp] theorem State.writeLog_ports (s : State) (en : LogEntry) : (s.writeLog en).ports = s.ports := by
  unfold State.writeLog; dsimp only; split <;> simp
@[simp] theorem State.writeLog_groups (s : State) (en : LogEntry) : (s.writeLog en).groups = s.groups := by
  unfold State.writeLog; dsimp only; split <;> simp
@[simp] theorem State.writeLog_sources (s : State) (en : LogEntry) : (s.writeLog en).sources = s.sources := by
  unfold State.writeLog; dsimp only; split <;> simp
@[simp] theorem State.writeLog_pool (s : State) (en : LogEntry) : (s.writeLog en).pool = s.pool := by
  unfold State.writeLog; dsimp only; split <;> simp
@[simp] theorem State.writeLog_sw (s : State) (en : LogEntry) : (s.writeLog en).sw = s.sw := by
  unfold State.writeLog; dsimp only; split <;> simp
@[simp] theorem State.writeLog_faults (s : State) (en : LogEntry) : (s.writeLog en).faults = s.faults := by
  unfold State.writeLog; dsimp only; split <;> simp

@[simp] theorem State.tellAward_pending (s : State) (p : PortNo) (x : Selection) (b : BidRecord) : (s.tellAward p x b).pending = s.pending := by
  unfold State.tellAward; split <;> simp
@[simp] theorem State.tellAward_pins (s : State) (p : PortNo) (x : Selection) (b : BidRecord) : (s.tellAward p x b).pins = s.pins := by
  unfold State.tellAward; split <;> simp
@[simp] theorem State.tellAward_timeBase (s : State) (p : PortNo) (x : Selection) (b : BidRecord) : (s.tellAward p x b).timeBase = s.timeBase := by
  unfold State.tellAward; split <;> simp
@[simp] theorem State.tellAward_ports (s : State) (p : PortNo) (x : Selection) (b : BidRecord) : (s.tellAward p x b).ports = s.ports := by
  unfold State.tellAward; split <;> simp
@[simp] theorem State.tellAward_groups (s : State) (p : PortNo) (x : Selection) (b : BidRecord) : (s.tellAward p x b).groups = s.groups := by
  unfold State.tellAward; split <;> simp
@[simp] theorem State.tellAward_sources (s : State) (p : PortNo) (x : Selection) (b : BidRecord) : (s.tellAward p x b).sources = s.sources := by
  unfold State.tellAward; split <;> simp
@[simp] theorem State.tellAward_pool (s : State) (p : PortNo) (x : Selection) (b : BidRecord) : (s.tellAward p x b).pool = s.pool := by
  unfold State.tellAward; split <;> simp
@[simp] theorem State.tellAward_faults (s : State) (p : PortNo) (x : Selection) (b : BidRecord) : (s.tellAward p x b).faults = s.faults := by
  unfold State.tellAward; split <;> simp

@[simp] theorem State.award_pending (s : State) (p : PortNo) (x : Selection) : (s.award p x).pending = s.pending := by
  unfold State.award; dsimp only; split <;> simp
@[simp] theorem State.award_pins (s : State) (p : PortNo) (x : Selection) : (s.award p x).pins = s.pins := by
  unfold State.award; dsimp only; split <;> simp
@[simp] theorem State.award_timeBase (s : State) (p : PortNo) (x : Selection) : (s.award p x).timeBase = s.timeBase := by
  unfold State.award; dsimp only; split <;> simp
@[simp] theorem State.award_groups (s : State) (p : PortNo) (x : Selection) : (s.award p x).groups = s.groups := by
  unfold State.award; dsimp only; split <;> simp
@[simp] theorem State.award_sources (s : State) (p : PortNo) (x : Selection) : (s.award p x).sources = s.sources := by
  unfold State.award; dsimp only; split <;> simp
@[simp] theorem State.award_pool (s : State) (p : PortNo) (x : Selection) : (s.award p x).pool = s.pool := by
  unfold State.award; dsimp only; split <;> simp
@[simp] theorem State.award_faults (s : State) (p : PortNo) (x : Selection) : (s.award p x).faults = s.faults := by
  unfold State.award; dsimp only; split <;> simp

theorem ladderPasses_pending (n : Nat) (p : PortNo) (s : State) : (ladderPasses n p s).pending = s.pending := by
  induction n generalizing s with
  | zero => rfl
  | succ n ih =>
    unfold ladderPasses
    split
    · split
      · exact (ih _).trans (by simp)
      · simp
    · rfl
theorem ladderPasses_pins (n : Nat) (p : PortNo) (s : State) : (ladderPasses n p s).pins = s.pins := by
  induction n generalizing s with
  | zero => rfl
  | succ n ih =>
    unfold ladderPasses
    split
    · split
      · exact (ih _).trans (by simp)
      · simp
    · rfl
theorem ladderPasses_timeBase (n : Nat) (p : PortNo) (s : State) : (ladderPasses n p s).timeBase = s.timeBase := by
  induction n generalizing s with
  | zero => rfl
  | succ n ih =>
    unfold ladderPasses
    split
    · split
      · exact (ih _).trans (by simp)
      · simp
    · rfl
theorem ladderPasses_groups (n : Nat) (p : PortNo) (s : State) : (ladderPasses n p s).groups = s.groups := by
  induction n generalizing s with
  | zero => rfl
  | succ n ih =>
    unfold ladderPasses
    split
    · split
      · exact (ih _).trans (by simp)
      · simp
    · rfl
theorem ladderPasses_sources (n : Nat) (p : PortNo) (s : State) : (ladderPasses n p s).sources = s.sources := by
  induction n generalizing s with
  | zero => rfl
  | succ n ih =>
    unfold ladderPasses
    split
    · split
      · exact (ih _).trans (by simp)
      · simp
    · rfl
theorem ladderPasses_pool (n : Nat) (p : PortNo) (s : State) : (ladderPasses n p s).pool = s.pool := by
  induction n generalizing s with
  | zero => rfl
  | succ n ih =>
    unfold ladderPasses
    split
    · split
      · exact (ih _).trans (by simp)
      · simp
    · rfl
theorem ladderPasses_faults (n : Nat) (p : PortNo) (s : State) : (ladderPasses n p s).faults = s.faults := by
  induction n generalizing s with
  | zero => rfl
  | succ n ih =>
    unfold ladderPasses
    split
    · split
      · exact (ih _).trans (by simp)
      · simp
    · rfl

@[simp] theorem State.ladder_pending (s : State) (p : PortNo) : (s.ladder p).pending = s.pending := ladderPasses_pending _ p s
@[simp] theorem State.ladder_pins (s : State) (p : PortNo) : (s.ladder p).pins = s.pins := ladderPasses_pins _ p s
@[simp] theorem State.ladder_timeBase (s : State) (p : PortNo) : (s.ladder p).timeBase = s.timeBase := ladderPasses_timeBase _ p s
@[simp] theorem State.ladder_groups (s : State) (p : PortNo) : (s.ladder p).groups = s.groups := ladderPasses_groups _ p s
@[simp] theorem State.ladder_sources (s : State) (p : PortNo) : (s.ladder p).sources = s.sources := ladderPasses_sources _ p s
@[simp] theorem State.ladder_pool (s : State) (p : PortNo) : (s.ladder p).pool = s.pool := ladderPasses_pool _ p s
@[simp] theorem State.ladder_faults (s : State) (p : PortNo) : (s.ladder p).faults = s.faults := ladderPasses_faults _ p s

/-! ## What the award scheduler keeps of its port, and the other ports -/

/-- What no award of a port changes in it: everything but its rows, award list, pointers, run and counts. -/
def Port.sameOutsideAwards (P Q : Port) : Prop :=
  Q = { P with active := Q.active, awards := Q.awards, pointers := Q.pointers, run := Q.run, counters := Q.counters }

theorem Port.sameOutsideAwards_refl (P : Port) : P.sameOutsideAwards P := rfl

theorem Port.sameOutsideAwards_trans {P Q R : Port} (h : P.sameOutsideAwards Q) (k : Q.sameOutsideAwards R) :
    P.sameOutsideAwards R := by
  unfold Port.sameOutsideAwards at *
  rw [k, h]

theorem Port.sameOutsideAwards_count (P : Port) (ev : CounterEvent) (c : Option ClassNo) (n : Nat) :
    P.sameOutsideAwards (P.count ev c n) := rfl

theorem Port.sameOutsideAwards_countAward (P : Port) (x : Selection) (b : BidRecord) :
    P.sameOutsideAwards (P.countAward x b) := by
  unfold Port.countAward
  cases x.charge <;> dsimp only <;> split <;> rfl

theorem Port.sameOutsideAwards_award (P : Port) (x : Selection) (b : BidRecord) (rest : List BidRecord) (now : Stamp) :
    P.sameOutsideAwards (P.award x b rest now) :=
  have h : P.sameOutsideAwards
      { P.setRow x.cls ({ P.row x.cls with queue := rest }.charge x.charge b.length) with
        awards := P.awards ++ [P.awardRecord x b now], pointers := x.movePointers P.pointers
        run := x.runAfter (P.row x.cls) b P.run } := rfl
  Port.sameOutsideAwards_trans h (Port.sameOutsideAwards_countAward _ x b)

theorem Port.sameOutsideAwards_pass (P : Port) : P.sameOutsideAwards P.pass.1 := by
  unfold Port.pass
  split
  · rfl
  · split <;> rfl

/-- A scan chooses a row with a queued record (R65). -/
theorem Port.scan_queue {P : Port} {l k c} (h : P.scan l k = some c) : (P.row c).queue ≠ [] := by
  have := List.find?_some h
  simp [Row.meets] at this
  intro hq; simp [hq] at this

theorem Port.scanStep_queue {P : Port} {l k x} (h : P.scanStep l k = some x) : (P.row x.cls).queue ≠ [] := by
  unfold Port.scanStep at h
  obtain ⟨c, hc, rfl⟩ := Option.map_eq_some_iff.mp h
  exact Port.scan_queue hc

/-- What a pass yields has a queued record, and the pass changes no award list and no setting (R66 to R70). -/
theorem Port.pass_queue {P Q : Port} {x} (h : P.pass = (Q, some x)) :
    (Q.row x.cls).queue ≠ [] ∧ Q.awards = P.awards ∧ Q.settings = P.settings := by
  unfold Port.pass at h
  split at h
  · cases h; rename_i h; exact ⟨Port.scanStep_queue h, rfl, rfl⟩
  · split at h
    · cases h; rename_i h
      refine ⟨?_, rfl, rfl⟩
      unfold Port.runStep at h
      split at h
      · cases h
      · rename_i y _
        split at h
        · rename_i hc; cases h
          intro hq
          simp [Run.continuedBy, hq] at hc
        · cases h
    · simp only [Prod.mk.injEq] at h
      obtain ⟨rfl, h⟩ := h
      refine ⟨?_, rfl, rfl⟩
      unfold Port.laneSteps at h
      show (P.row x.cls).queue ≠ []
      simp only [Option.or_eq_some_iff] at h
      rcases h with h | ⟨_, h | ⟨_, h | ⟨_, h | ⟨_, h⟩⟩⟩⟩ <;> exact Port.scanStep_queue h

/-- An award of a queued record adds one record to the award list and changes no setting (R72). -/
theorem State.award_length (s : State) (p : PortNo) (x : Selection) (h : ((s.port p).row x.cls).queue ≠ []) :
    ((s.award p x).port p).awards.length = (s.port p).awards.length + 1
      ∧ ((s.award p x).port p).settings = (s.port p).settings := by
  unfold State.award
  dsimp only
  split
  · contradiction
  · rename_i b rest _
    have : ∀ t : State, ((t.tellAward p x b).port p) = t.port p := fun t => by simp [State.port]
    rw [this]
    have hp : ∀ P, (s.setPort p P).port p = P := fun P => by simp [State.port, State.setPort]
    rw [hp]
    constructor
    · simp [Port.award, Port.countAward]; cases x.charge <;> simp [Port.count] <;> split <;> simp
    · simp [Port.award, Port.countAward]; cases x.charge <;> simp [Port.count] <;> split <;> simp [Port.setRow]

theorem State.award_port_ne (s : State) {p q : PortNo} (x : Selection) (h : q ≠ p) :
    (s.award p x).port q = s.port q := by
  unfold State.award
  dsimp only
  split
  · rfl
  · exact (State.port_congr (State.tellAward_ports _ p x _) q).trans (State.port_setPort_ne s _ h)

theorem State.award_port_same (s : State) (p : PortNo) (x : Selection) :
    (s.port p).sameOutsideAwards ((s.award p x).port p) := by
  unfold State.award
  dsimp only
  split
  · rfl
  · rw [State.port_congr (State.tellAward_ports _ p x _) p, State.port_setPort_same]
    exact Port.sameOutsideAwards_award _ _ _ _ _

/-- The ladder of a port changes no other port, and of its own port only what awards change (R63, R64). -/
theorem ladderPasses_port (n : Nat) (p : PortNo) (s : State) :
    (∀ q, q ≠ p → (ladderPasses n p s).port q = s.port q) ∧ (s.port p).sameOutsideAwards ((ladderPasses n p s).port p) := by
  induction n generalizing s with
  | zero => exact ⟨fun _ _ => rfl, rfl⟩
  | succ n ih =>
    unfold ladderPasses
    split
    · have hp := Port.sameOutsideAwards_pass (s.port p)
      split
      · rename_i P x e
        rw [e] at hp
        have hs : (s.port p).sameOutsideAwards ((s.setPort p P).port p) := by rw [State.port_setPort_same]; exact hp
        exact ⟨fun q h => ((ih _).1 q h).trans ((State.award_port_ne _ x h).trans (State.port_setPort_ne s P h)),
          Port.sameOutsideAwards_trans hs (Port.sameOutsideAwards_trans (State.award_port_same _ p x) (ih _).2)⟩
      · rename_i P e
        rw [e] at hp
        exact ⟨fun q h => State.port_setPort_ne s P h, by rw [State.port_setPort_same]; exact hp⟩
    · exact ⟨fun _ _ => rfl, rfl⟩

theorem State.ladder_port_ne (s : State) {p q : PortNo} (h : q ≠ p) : (s.ladder p).port q = s.port q :=
  (ladderPasses_port _ p s).1 q h

theorem State.ladder_port_same (s : State) (p : PortNo) : (s.port p).sameOutsideAwards ((s.ladder p).port p) :=
  (ladderPasses_port _ p s).2

/-- Every command but the two of the reset line is an event: with RST_N high its effect and then the end of the event. -/
theorem event_high {f : State → State} {s : State} (h : s.pins.rstN = true) : event f s = .next (f s).settle := by
  simp [event, h]

/-! ## The end of an event -/

@[simp] theorem State.beginManagement_pending (s : State) : (s.beginManagement).pending = s.pending := by
  unfold State.beginManagement; split <;> rfl
@[simp] theorem State.beginManagement_pins (s : State) : (s.beginManagement).pins = s.pins := by
  unfold State.beginManagement; split <;> rfl
@[simp] theorem State.beginManagement_timeBase (s : State) : (s.beginManagement).timeBase = s.timeBase := by
  unfold State.beginManagement; split <;> rfl
@[simp] theorem State.beginManagement_ports (s : State) : (s.beginManagement).ports = s.ports := by
  unfold State.beginManagement; split <;> rfl
@[simp] theorem State.beginManagement_groups (s : State) : (s.beginManagement).groups = s.groups := by
  unfold State.beginManagement; split <;> rfl
@[simp] theorem State.beginManagement_sources (s : State) : (s.beginManagement).sources = s.sources := by
  unfold State.beginManagement; split <;> rfl
@[simp] theorem State.beginManagement_pool (s : State) : (s.beginManagement).pool = s.pool := by
  unfold State.beginManagement; split <;> rfl
@[simp] theorem State.beginManagement_sw (s : State) : (s.beginManagement).sw = s.sw := by
  unfold State.beginManagement; split <;> rfl
@[simp] theorem State.beginManagement_faults (s : State) : (s.beginManagement).faults = s.faults := by
  unfold State.beginManagement; split <;> rfl
@[simp] theorem State.beginManagement_log (s : State) : (s.beginManagement).log = s.log := by
  unfold State.beginManagement; split <;> rfl

@[simp] theorem State.settle_pending (s : State) : (s.settle).pending = s.pending := by
  simp [State.settle]
@[simp] theorem State.settle_timeBase (s : State) : (s.settle).timeBase = s.timeBase := by
  simp [State.settle]
@[simp] theorem State.settle_ports (s : State) : (s.settle).ports = s.ports := by
  simp [State.settle]
@[simp] theorem State.settle_groups (s : State) : (s.settle).groups = s.groups := by
  simp [State.settle]
@[simp] theorem State.settle_sources (s : State) : (s.settle).sources = s.sources := by
  simp [State.settle]
@[simp] theorem State.settle_pool (s : State) : (s.settle).pool = s.pool := by
  simp [State.settle]
@[simp] theorem State.settle_faults (s : State) : (s.settle).faults = s.faults := by
  simp [State.settle]
@[simp] theorem State.settle_log (s : State) : (s.settle).log = s.log := by
  simp [State.settle]

end Sys2Proof.Machine
end

