-- ==== Sys2Proof/Laws/Wire.lean ====
section
/-! SUPPORT. Facts about the bytes of the two links: a check value appended to what it covers leaves the register at 0
(R168, R170), fields put into bytes are read back from them, and each frame body is read back from its bytes. -/

namespace Sys2Proof.Wire

/-! ## The cyclic redundancy checks -/

theorem crc8Byte_self (r : Byte) : crc8Byte r r = 0 := by
  simp [crc8Byte, crc8Bit]

/-- A receiver that runs the CRC-8 over the whole frame, CRC byte included, ends with 0 (R168). -/
theorem crc8_append_self (l : List Byte) : crc8 (l ++ [crc8 l]) = 0 := by
  simp [crc8, crc8Byte_self]

theorem crc16_shift (x : Byte) : Nat.iterate crc16Bit 8 (0#8 ++ x) = x ++ 0#8 := by
  revert x; decide +kernel

theorem crc16Byte_high (r : BitVec 16) :
    crc16Byte r (r.extractLsb' 8 8) = r.extractLsb' 0 8 ++ 0#8 := by
  have h : r ^^^ (r.extractLsb' 8 8 ++ 0#8) = 0#8 ++ r.extractLsb' 0 8 := by
    apply BitVec.eq_of_getLsbD_eq
    intro i hi
    simp only [BitVec.getLsbD_xor, BitVec.getLsbD_append, BitVec.getLsbD_extractLsb', BitVec.getLsbD_zero]
    rcases Nat.lt_or_ge i 8 with h8 | h8
    · simp [h8]
    · have h : 8 + (i - 8) = i := by omega
      simp [Nat.not_lt.mpr h8, h, show i - 8 < 8 by omega]
  rw [crc16Byte, h, crc16_shift]

theorem crc16Byte_zero (x : Byte) : crc16Byte (x ++ 0#8) x = 0 := by
  simp [crc16Byte, crc16Bit]

/-- The CRC-16 over a whole frame, its two CRC characters included, is 0 (R170). -/
theorem crc16_append_self (l : List Byte) : crc16 (l ++ bytes2 (crc16 l)) = 0 := by
  simp only [crc16, bytes2, List.foldl_append, List.foldl_cons, List.foldl_nil]
  rw [crc16Byte_high, crc16Byte_zero]

/-- A CRC-8 that is not that of the bytes before it leaves the register at another value than 0 (R168). -/
theorem crc8_append_eq_zero (l : List Byte) (c : Byte) : crc8 (l ++ [c]) = 0 ↔ c = crc8 l := by
  have h : ∀ x : Byte, Nat.iterate crc8Bit 8 x = 0 → x = 0 := by decide +kernel
  refine ⟨fun hc => ?_, fun hc => hc ▸ crc8_append_self l⟩
  simp only [crc8, List.foldl_append, List.foldl_cons, List.foldl_nil, crc8Byte] at hc
  exact (BitVec.xor_eq_zero_iff.mp (h _ hc)).symm

theorem crc16Bit_injective : Function.Injective crc16Bit := by
  intro x y h
  have bit0 : ∀ z : BitVec 16, (crc16Bit z).getLsbD 0 = z.msb := fun z => by
    unfold crc16Bit
    cases hz : z.msb <;> simp
  have hm : x.msb = y.msb := by rw [← bit0, ← bit0, h]
  have hs : x <<< 1 = y <<< 1 := by
    unfold crc16Bit at h
    rw [hm] at h
    cases hy : y.msb <;> simpa [hy] using h
  apply BitVec.eq_of_getLsbD_eq
  intro i hi
  rcases Nat.lt_or_ge i 15 with h15 | h15
  · have := congrArg (fun v : BitVec 16 => v.getLsbD (i + 1)) hs
    simpa [BitVec.getLsbD_shiftLeft, show i + 1 < 16 by omega, ← BitVec.getLsbD_eq_getElem] using this
  · obtain rfl : i = 15 := by omega
    simpa [BitVec.msb_eq_getLsbD_last] using hm

/-- Two characters that are not the CRC-16 of those before them leave the register at another value than 0 (R170). -/
theorem crc16_append_eq_zero (l : List Byte) (c : BitVec 16) : crc16 (l ++ bytes2 c) = 0 ↔ c = crc16 l := by
  have inj : Function.Injective (Nat.iterate crc16Bit 8) := crc16Bit_injective.iterate 8
  refine ⟨fun hc => ?_, fun hc => hc ▸ crc16_append_self l⟩
  simp only [crc16, bytes2, List.foldl_append, List.foldl_cons, List.foldl_nil] at hc
  change crc16Byte (crc16Byte (crc16 l) (c.extractLsb' 8 8)) (c.extractLsb' 0 8) = 0 at hc
  have h2 : crc16Byte (crc16 l) (c.extractLsb' 8 8) = c.extractLsb' 0 8 ++ 0#8 :=
    BitVec.xor_eq_zero_iff.mp (inj (hc.trans (by decide)))
  have h3 : crc16 l ^^^ (c.extractLsb' 8 8 ++ 0#8) = 0#8 ++ c.extractLsb' 0 8 := inj (h2.trans (crc16_shift _).symm)
  have h4 : c ^^^ (c.extractLsb' 8 8 ++ 0#8) = 0#8 ++ c.extractLsb' 0 8 :=
    inj ((crc16Byte_high c).trans (crc16_shift _).symm)
  have h5 := congrArg (fun v : BitVec 16 => v ^^^ (c.extractLsb' 8 8 ++ 0#8)) (h4.trans h3.symm)
  simpa [BitVec.xor_assoc] using h5

/-! ## Fields -/

/-- Two neighbouring fields of a word, put together, are one field of it. -/
theorem extract_append {w : Nat} (v : BitVec w) (i a b : Nat) :
    v.extractLsb' (i + b) a ++ v.extractLsb' i b = v.extractLsb' i (a + b) := by
  apply BitVec.eq_of_getLsbD_eq
  intro j hj
  rcases Nat.lt_or_ge j b with h | h
  · simp only [BitVec.getLsbD_append, BitVec.getLsbD_extractLsb', h, hj, decide_true, Bool.true_and, if_true]
  · simp only [BitVec.getLsbD_append, BitVec.getLsbD_extractLsb', Nat.not_lt.mpr h, hj, decide_true, Bool.true_and,
      if_false, show j - b < a by omega, show i + b + (j - b) = i + j by omega]

@[simp] theorem word2_bytes2 (v : BitVec 16) : word2 (v.extractLsb' 8 8) (v.extractLsb' 0 8) = v :=
  (extract_append v 0 8 8).trans BitVec.extractLsb'_eq_self

@[simp] theorem word3_bytes3 (v : BitVec 24) :
    word3 (v.extractLsb' 16 8) (v.extractLsb' 8 8) (v.extractLsb' 0 8) = v := by
  have h : v.extractLsb' 16 8 ++ v.extractLsb' 8 8 = v.extractLsb' 8 16 := extract_append v 8 8 8
  rw [word3, h]
  exact (extract_append v 0 16 8).trans BitVec.extractLsb'_eq_self

@[simp] theorem portOf_portNibble (p : PortNo) (x : BitVec 4) : portOf (portNibble p x) = p := by
  revert p x; decide +kernel

@[simp] theorem lowNibble_portNibble (p : PortNo) (x : BitVec 4) : lowNibble (portNibble p x) = x := by
  revert p x; decide +kernel

@[simp] theorem gradeOfCode_gradeCode (g : Grade) : gradeOfCode (gradeCode g) = some g := by
  cases g <;> decide

@[simp] theorem swKindOf_code (k : SwKind) : swKindOf k.code = some k := by
  cases k <;> decide

@[simp] theorem length20_of_parts (v : BitVec 20) :
    (v.extractLsb' 16 4 ++ v.extractLsb' 8 8 ++ v.extractLsb' 0 8 : BitVec 20) = v := by
  have h : v.extractLsb' 16 4 ++ v.extractLsb' 8 8 = v.extractLsb' 8 12 := extract_append v 8 4 8
  rw [h]
  exact (extract_append v 0 12 8).trans BitVec.extractLsb'_eq_self

/-! ## Bodies -/

@[simp] theorem bidOfBytes_bidBytes (b : BidBody) : bidOfBytes (bidBytes b) = some b := by
  simp [bidOfBytes, bidBytes, bytes3, bytes2, length20_of_parts]

@[simp] theorem finishOfBytes_finishBytes (f : FinishBody) : finishOfBytes (finishBytes f) = some f := by
  simp [finishOfBytes, finishBytes, bytes3, bytes2]

/-- The body of a frame has the length fixed for its kind (Table 11.1). -/
@[simp] theorem SwIn.body_length (f : SwIn) : f.body.length = f.kind.bodyLength := by
  cases f <;> simp [SwIn.body, SwIn.kind, SwKind.bodyLength, bidBytes, finishBytes, bytes2, bytes3]

/-- The body of a frame is read back as that frame. -/
theorem decodeSwBody_body (f : SwIn) : decodeSwBody f.kind f.body = some f := by
  cases f with
  | bid b => exact congrArg (Option.map SwIn.bid) (bidOfBytes_bidBytes b)
  | finish b => exact congrArg (Option.map SwIn.finish) (finishOfBytes_finishBytes b)
  | withdraw p t =>
    show some (SwIn.withdraw (portOf (portNibble p 0)) (word2 (t.extractLsb' 8 8) (t.extractLsb' 0 8))) = _
    rw [portOf_portNibble, word2_bytes2]
  | grade p g =>
    show (gradeOfCode (lowNibble (portNibble p (gradeCode g)))).map
      (SwIn.grade (portOf (portNibble p (gradeCode g)))) = _
    rw [lowNibble_portNibble, gradeOfCode_gradeCode, portOf_portNibble]; rfl
  | forget => rfl
  | sync => rfl

/-- Reading a body of a kind gives a frame of that kind. -/
theorem decodeSwBody_kind {k : SwKind} {body : List Byte} {f : SwIn} (h : decodeSwBody k body = some f) :
    f.kind = k := by
  cases k with
  | bid =>
    have h : (bidOfBytes body).map SwIn.bid = some f := h
    obtain ⟨_, _, rfl⟩ := Option.map_eq_some_iff.mp h; rfl
  | finish =>
    have h : (finishOfBytes body).map SwIn.finish = some f := h
    obtain ⟨_, _, rfl⟩ := Option.map_eq_some_iff.mp h; rfl
  | withdraw =>
    match body, h with
    | [a, b, c], h =>
      have h : some (SwIn.withdraw (portOf a) (word2 b c)) = some f := h
      rw [← Option.some.inj h]; rfl
  | grade =>
    match body, h with
    | [a], h =>
      have h : (gradeOfCode (lowNibble a)).map (SwIn.grade (portOf a)) = some f := h
      obtain ⟨_, _, rfl⟩ := Option.map_eq_some_iff.mp h; rfl
  | forget =>
    match body, h with
    | [], h => rw [← Option.some.inj (h : some SwIn.forget = some f)]; rfl
  | sync =>
    match body, h with
    | [], h => rw [← Option.some.inj (h : some SwIn.sync = some f)]; rfl

@[simp] theorem SwIn.bytes_length (f : SwIn) : f.bytes.length = f.kind.bodyLength + 3 := by
  simp [SwIn.bytes]

/-- A good frame at the head of the buffer fills exactly its own length. -/
theorem examine_good_length {l : List Byte} {f : SwIn} {n : Nat} (h : examine l = .good f n) :
    n = f.bytes.length := by
  match l, h with
  | kb :: rest, h =>
  rw [examine] at h
  split at h
  · cases h
  · rename_i k _
    split at h
    · cases h
    · split at h
      · cases h
      · rw [examineWhole] at h
        split at h
        · cases h
        · split at h
          · cases h
          · split at h
            · rename_i hd; cases h
              simp [decodeSwBody_kind hd]
            · cases h

/-- What the examination finds once the whole of a frame's body and its CRC byte are in the buffer (R120). -/
theorem examine_whole (k : SwKind) (body rest : List Byte) (c : Byte) (hb : body.length = k.bodyLength) :
    examine ((k.code :: BitVec.ofNat 8 k.bodyLength :: body) ++ c :: rest) =
      if c ≠ crc8 (k.code :: BitVec.ofNat 8 k.bodyLength :: body) then .damaged (k.bodyLength + 3)
      else match decodeSwBody k body with
        | some f => .good f (k.bodyLength + 3)
        | none => .lost := by
  have tk : (body ++ c :: rest).take (k.bodyLength + 1) = body ++ [c] := by
    rw [← hb, List.take_append, List.take_of_length_le (by omega)]; simp
  have tk' : (body ++ c :: rest).take (k.bodyLength) = body := by simp [← hb]
  have hl : ¬ (body ++ c :: rest).length < k.bodyLength + 1 := by simp [← hb]
  have h0 := crc8_append_eq_zero (k.code :: BitVec.ofNat 8 k.bodyLength :: body) c
  simp only [List.cons_append] at h0
  simp only [List.cons_append, examine, swKindOf_code, examineWhole, tk, tk', hl, if_false, ne_eq, not_true_eq_false,
    h0] <;> rfl

/-! ## Kinds of requests -/

theorem byte_of_toNat {k : Byte} {n : Nat} (hk : k.toNat = n) : BitVec.ofNat 8 n = k := by
  subst hk; simp
theorem body0_some {i j b} (h : body0 i b = some j) : i = j := by
  match b, h with
  | [], h => exact Option.some.inj h
theorem body1_some {f : Byte → Instr} {j b} (h : body1 f b = some j) : ∃ a, f a = j := by
  match b, h with
  | [a], h => exact ⟨a, Option.some.inj h⟩
theorem body2_some {f : Byte → Byte → Instr} {j b} (h : body2 f b = some j) : ∃ a c, f a c = j := by
  match b, h with
  | [a, c], h => exact ⟨a, c, Option.some.inj h⟩
theorem body3_some {f : Byte → Byte → Byte → Instr} {j b} (h : body3 f b = some j) : ∃ a c d, f a c d = j := by
  match b, h with
  | [a, c, d], h => exact ⟨a, c, d, Option.some.inj h⟩
theorem bodyWord_some {f : BitVec 16 → Instr} {j b} (h : bodyWord f b = some j) : ∃ a, f a = j := by
  match b, h with
  | [a, c], h => exact ⟨_, Option.some.inj h⟩
theorem bodyWords_some {f : BitVec 16 → BitVec 16 → Instr} {j b} (h : bodyWords f b = some j) : ∃ a c, f a c = j := by
  match b, h with
  | [a, b, c, d], h => exact ⟨_, _, Option.some.inj h⟩
/-- A request read from a body of a kind is a request of that kind (Table 11.3). -/
theorem decodeRequest_kind {k : Byte} {body : List Byte} {i : Instr} (h : decodeRequest k body = some i) :
   (requestParts i).map Prod.fst = some k := by
  unfold decodeRequest at h
  split at h
  all_goals try (obtain rfl := body0_some h; exact congrArg some (byte_of_toNat (by assumption)))
  all_goals try (obtain ⟨_, rfl⟩ := body1_some h; exact congrArg some (byte_of_toNat (by assumption)))
  all_goals try (obtain ⟨_, _, rfl⟩ := body2_some h; exact congrArg some (byte_of_toNat (by assumption)))
  all_goals try (obtain ⟨_, _, _, rfl⟩ := body3_some h; exact congrArg some (byte_of_toNat (by assumption)))
  all_goals try (obtain ⟨_, _, rfl⟩ := bodyWords_some h; exact congrArg some (byte_of_toNat (by assumption)))
  all_goals simp only [Option.bind_eq_some_iff, Option.map_eq_some_iff, reduceCtorEq] at h
  · obtain ⟨_, _, _, _, rfl⟩ := h; exact congrArg some (byte_of_toNat (by assumption))
  · obtain ⟨_, _, _, _, rfl⟩ := h; exact congrArg some (byte_of_toNat (by assumption))
  · obtain ⟨_, _, _, _, _, _, rfl⟩ := h; exact congrArg some (byte_of_toNat (by assumption))
  · obtain ⟨_, _, rfl⟩ := h; exact congrArg some (byte_of_toNat (by assumption))
  · obtain ⟨_, _, rfl⟩ := h; exact congrArg some (byte_of_toNat (by assumption))
/-- A frame that holds a request carries that request's kind. -/
theorem verdict_kind {f : RequestFrame} {i : Instr} (h : verdict f = .request i) :
    (requestParts i).map Prod.fst = some (kindOf f) := by
  unfold verdict at h
  split at h
  · exact nomatch h
  · split at h
    · rename_i kind rest e
      split at h
      · exact nomatch h
      · split at h
        · exact nomatch h
        · split at h
          · rename_i hd
            have : kindOf f = kind := by rw [kindOf, e]; rfl
            rw [this]
            cases h
            exact decodeRequest_kind hd
          · exact nomatch h
    · exact nomatch h

end Sys2Proof.Wire
end

