-- ==== Sys2Proof/Laws/Serve.lean ====
section
/-! SUPPORT. What a serving command and a frame command do when their frame is next: the lemmas that stand for an
unfolding of `State.serve` and of `State.takeFrame`. -/

namespace Sys2Proof.Machine

open Sys2Proof.Wire (Verdict SwIn verdict examine isComplete kindOf requestFrame requestParts)

/-- With no complete frame in assembly, `completeAssembly` changes nothing (R135). -/
theorem completeAssembly_of_incomplete {s : State}
    (h : ∀ a, s.mg.assembly = some a → isComplete a.chars = false) : s.completeAssembly = s := by
  unfold State.completeAssembly
  split
  · rename_i a ha
    simp [h a ha]
  · rfl

/-- The served frame leaves the buffer and its owning block acts; the reply joins the queue, and behind it the NOTICE that
the request calls for (R137, R144). -/
def State.replyWith (s : State) (kind : Byte) (v : Served) : State :=
  let u := v.st.queueReply kind v.result v.body v.onSent
  if v.callsNotice then u.callNotice else u

/-- A serving command whose frame is the next to be served: its block acts on the state past the frame, and the reply
carries the kind of the frame served (R137). -/
theorem serve_of_next {want : Verdict → Bool} {v : Verdict} {f : RequestFrame} {act : State → Served} {s : State}
    (h : s.requestNext v) (hw : ∀ x, want x = decide (x = v)) (hf : verdict f = v) :
    s.serve want f act = State.replyWith s.taken (kindOf (s.mg.inbound.head?.getD f)) (act s.taken) := by
  obtain ⟨_, hm, ha, hi⟩ := h
  have hc := completeAssembly_of_incomplete ha
  cases hb : s.mg.inbound with
  | nil =>
    have ho : s.offerRequest want f = { s with mg := { s.mg with inbound := [f] } } := by
      simp [State.offerRequest, hc, State.servesNow, hb, State.joinInbound]
    have hs : ({ s with mg := { s.mg with inbound := [f] } } : State).servesNow want = true := by
      have : ({ s.mg with inbound := [f] } : MgUnit).mayServe = true := hm
      simp [State.servesNow, this, hw, hf]
    unfold State.serve
    rw [ho]
    dsimp only
    rw [hs]
    simp [State.serveHead, State.replyWith, State.taken, hb]
  | cons g rest =>
    have hg : verdict g = v := hi g (by simp [hb])
    have hs : s.servesNow want = true := by simp [State.servesNow, hm, hb, hw, hg]
    have ho : s.offerRequest want f = s := by simp [State.offerRequest, hc, hs]
    unfold State.serve
    rw [ho]
    dsimp only
    rw [hs]
    simp [State.serveHead, hb, State.replyWith, State.taken]

/-- The kind that the reply carries is the kind of the request (R137, Table 11.3). -/
theorem kindOf_served {i : Instr} {s : State} {kind : Byte} {body : List Byte}
    (h : s.requestNext (.request i)) (hp : requestParts i = some (kind, body))
    (hf : verdict (requestFrame i) = .request i) :
    kindOf (s.mg.inbound.head?.getD (requestFrame i)) = kind := by
  have key : ∀ g, verdict g = .request i → kindOf g = kind := fun g hg => by
    have := Sys2Proof.Wire.verdict_kind hg
    rw [hp] at this
    exact (Option.some.inj this).symm
  cases hb : s.mg.inbound.head? with
  | none => exact key _ hf
  | some g => exact key _ (h.2.2.2 g hb)

/-- The outcome of a request that is next to be served (R137). -/
theorem serveRequest_of_next {i : Instr} {act : State → Served} {s : State} {kind : Byte} {body : List Byte}
    (h : s.requestNext (.request i)) (hp : requestParts i = some (kind, body))
    (hf : verdict (requestFrame i) = .request i) :
    event (State.serveRequest i act) s = .next (State.replyWith s.taken kind (act s.taken)).settle := by
  have hs := serve_of_next (want := fun v => v == .request i) (act := act) h (fun _ => rfl) hf
  rw [kindOf_served h hp hf] at hs
  unfold event
  rw [h.1]
  simp only [if_true, State.serveRequest, hs]

/-- Bytes that arrive in SYNCED, with room for all of them, join the tail of the receive buffer (R119). -/
theorem receiveBytes_synced {bs : List Byte} {s : State} (h : s.sw.link = .synced)
    (hl : s.sw.rx.length + bs.length ≤ 256) : s.receiveBytes bs = s.setRx (s.sw.rx ++ bs) := by
  induction bs generalizing s with
  | nil => simp [State.receiveBytes, State.setRx]
  | cons b bs ih =>
    have h1 : s.receiveByte b = s.setRx (s.sw.rx ++ [b]) := by
      have : s.sw.rx.length < 256 := by simp at hl; omega
      simp [State.receiveByte, this, State.setRx, State.huntRx, h]
    have h2 : (s.receiveByte b).receiveBytes bs = s.receiveBytes (b :: bs) := rfl
    rw [← h2, h1, ih (s := s.setRx (s.sw.rx ++ [b])) h (by simp [State.setRx] at hl ⊢; omega)]
    simp [State.setRx]

/-- A frame of the switch that is next to be examined is taken: its bytes leave the buffer, and its owning block acts
(R119, R120). -/
theorem takeFrame_of_next {f : SwIn} {handle : State → State} {s : State} (h : s.frameNext f)
    (hb : examine f.bytes = .good f f.bytes.length) (hl : f.bytes.length ≤ 256) :
    event (State.takeFrame f handle) s = .next (handle (s.pastFrame f)).settle := by
  obtain ⟨hr, hk, hq, hx⟩ := h
  have he : s.sw.examining = true := by simp [SwitchUnit.examining, SwitchUnit.deferred, hk]; omega
  have hd : ∀ rx, (s.setRx rx).sw.examining = true := fun _ => he
  have key : State.takeFrame f handle s = handle (s.pastFrame f) := by
    rcases hx with hx | ⟨n, hx⟩
    · have harr : s.receiveBytes f.bytes = s.setRx f.bytes := by
        rw [receiveBytes_synced hk (by simp [hx]; simpa using hl), hx, List.nil_append]
      have h0 : examine [] = .incomplete := rfl
      simp only [State.takeFrame, State.arrive, State.finds, hx, h0, harr, hd, Bool.and_false, Bool.false_eq_true, if_false,
        show (s.setRx f.bytes).sw.rx = f.bytes from rfl, hb, beq_self_eq_true, Bool.and_self, if_true]
      simp [State.dropRx, State.setRx, State.pastFrame, hx, List.drop_length, -SwIn.bytes_length]
    · have hlen := Sys2Proof.Wire.examine_good_length hx
      simp [State.takeFrame, State.arrive, State.finds, he, hx, State.dropRx, State.setRx, State.pastFrame, hlen]
  unfold event
  rw [hr, if_pos rfl, key]

end Sys2Proof.Machine
end

