-- ==== Sys2Proof/WellFormed.lean ====
section
/-! DEFINITION. Which commands name what their row says: the bytes of a damaged frame are a damaged frame, a request of
unknown kind has an unknown kind, and so on. `exec` is total without these checks; a command that fails one has the
effect of the bytes it carries (entry 7). -/

namespace Sys2Proof

open Sys2Proof.Wire (Examined Verdict examine verdict isComplete)

/-- The bytes are one whole frame of a known kind and length whose CRC-8 fails (R121). -/
def isDamagedFrame (bytes : List Byte) : Bool := examine bytes == .damaged bytes.length

/-- The bytes begin with a bad kind, a bad body length, or a whole frame with an undefined code (R122). -/
def isLossOfFraming (bytes : List Byte) : Bool := examine bytes == .lost

/-- The characters are one whole frame, to its second CRC-16 character and no further (R135). -/
def isWholeFrame (chars : List Byte) : Bool := isComplete chars && !isComplete chars.dropLast

/-- The frame is answered BAD_FRAME, and it is whole or abandoned before it was (R135, R138). -/
def isBadFrame (f : RequestFrame) : Bool :=
  verdict f == .badFrame && (if f.abandoned then !isComplete f.chars else isWholeFrame f.chars)

/-- The characters are a whole frame that is answered UNKNOWN_KIND (R138). -/
def isUnknownKind (chars : List Byte) : Bool :=
  isWholeFrame chars && verdict { chars := chars, abandoned := false } == .unknownKind

/-- The command names what its row says. Every other command carries only fields that every value fits. -/
def Instr.wellFormed : Instr → Bool
  | .damagedFrame bytes => isDamagedFrame bytes
  | .lossOfFraming bytes => isLossOfFraming bytes
  | .requestFrameComplete chars => isWholeFrame chars
  | .badFrameRequest frame => isBadFrame frame
  | .unknownKindRequest chars => isUnknownKind chars
  | .swByteReceived _ | .examinationResume | .syncResyncEnd | .syncInSynced | .bid _ | .withdraw _ _ | .finish _
  | .grade _ _ | .forget | .checkPulseExpiry | .swOutboundFrameSent | .accrualTimerExpiry _ | .runTimerExpiry _
  | .deadlineExpiry _ _ | .holdDownExpiry _ | .frameAbandoned | .mgFrameSent | .identify | .lineRate _ | .status
  | .noticeEnable _ | .noticeAck _ | .reset | .warmReset | .coldResetAssert | .coldResetRelease | .portSet _ _
  | .portRead _ | .portMode _ _ | .portFlush _ | .sourceSet _ _ | .sourceRead _ | .contractStage _ _ _
  | .contractRead _ _ _ | .commit _ | .abortCommit _ | .lock _ _ | .queueRead _ _ | .poolSet _ _ | .poolRead
  | .faultRead | .faultClear | .faultMode _ | .counterSelect _ _ _ | .counterRead _ _ | .testBid _ | .testFinish _
  | .rehearsalRead | .mgCharacterReceived _ => true

end Sys2Proof
end

