-- ==== Sys2Proof/Tests/Slice0.lean ====
section
/-! SUPPORT. Tests of single commands, with expected results from the manual's worked examples and tables, and a witness
for every statement of Certificates/Slice0/Obligations.lean that has hypotheses. -/

namespace Sys2Proof.Tests

-- One theorem after another: with all of them at once, the stacks of the kernel's threads pass the memory limit.
set_option Elab.async false

open Sys2Proof.Machine
open Sys2Proof.Wire (SwIn Verdict examine verdict requestFrame requestParts isComplete hunt syncBytes kindOf)

/-! ## Small states -/

/-- What a command's next state is asked. -/
def after (c : Instr) (s : State) (p : State → Bool) : Bool :=
  match exec c s with
  | .next t => p t
  | _ => false

/-- The part after a cold reset and the end of RESYNC. -/
def synced : State :=
  { State.reset with
    sw := { State.reset.sw with link := .synced }
    pins := { State.reset.pins with alertLow := false } }

def mainContract : Contract :=
  { valid := true, lane := .main, floorShare := 400, ceilingShare := 1024, floorBurst := 60000, ceilingBurst := 60000,
    isProtected := false, queueLimit := 2, runHold := 500 }

def mainRow (fb cb : Int) (q : List BidRecord) : Row :=
  { Row.cold with contract := mainContract, fb := fb, cb := cb, e := 400, ce := 1024, queue := q }

/-- A record of source entry 63 and class 15. -/
def record (tag : Tag) : BidRecord :=
  { tag := tag, source := 63, cls := 15, length := 4096, key := 7, acceptTime := 0 }

def awarded (tag : Tag) : AwardRecord :=
  { bid := record tag, charge := .floor, awardTime := 0, deadline := 50000, timer := 50000, refundable := true }

/-- A source entry that matches every address, for class 15 and three records. -/
def anySource (outstanding : Nat) : SourceEntry :=
  { valid := true, matchBase := 0, matchMask := 0xFFFFFF, cls := 15, limit := 3, admission := .admitted,
    outstanding := outstanding }

/-- Port 15 with tag FFFFh queued in row 15, tag 0 on its award list, and that one place of its window taken. -/
def busyPort (m : Mode) : Port :=
  { Port.cold.setRow 15 (mainRow 100000 200000 [record 0xFFFF]) with
    awards := [awarded 0], mode := m, grade := .full, stranded := false
    settings := { PortSettings.cold with window := 1 } }

def busy (m : Mode) : State :=
  { (synced.setPort 15 (busyPort m)).setSource 63 (anySource 2) with
    pool := { Pool.cold with free := 2046 }
    log := { entries := [], reserved := if m = .rehearsal then 1 else 0 } }

/-- Port 15 with an empty valid row 15 and nothing awarded. -/
def openPort (m : Mode) : Port :=
  { Port.cold.setRow 15 (mainRow 100000 200000 []) with mode := m, grade := .full, stranded := false }

def openFor (m : Mode) : State := (synced.setPort 15 (openPort m)).setSource 63 (anySource 0)

/-- The bid of section 11.4: port 3, 65,536 bytes, tag 0201h, address 0A1023h, key 0007h. -/
def exampleBid : BidBody :=
  { port := 3, codedLength := 65535, address := 0x0A1023, tag := 0x0201, key := 0x0007 }

def bidAt15 (tag : Tag) : BidBody := { exampleBid with port := 15, tag := tag }

/-- A bid of 1,048,576 bytes, the greatest length, at the greatest address. -/
def greatBid : BidBody := { port := 15, codedLength := 0xFFFFF, address := 0xFFFFFF, tag := 1, key := 0xFFFF }

/-- The finish of a record of port 15 after 1,024 of its 4,096 bytes. -/
def finishAt15 (tag : Tag) : FinishBody := { port := 15, tag := tag, moved := 1024 }

/-! ## Ill-formed commands are told from well-formed ones -/

theorem test_wellFormed_damagedFrame :
    Instr.wellFormed (.damagedFrame [0x5A, 0x00, 0xFF]) = true
      ∧ Instr.wellFormed (.damagedFrame syncBytes) = false
      ∧ Instr.wellFormed (.damagedFrame [0x5A, 0x00]) = false := by decide +kernel

theorem test_wellFormed_lossOfFraming :
    Instr.wellFormed (.lossOfFraming [0x99]) = true
      ∧ Instr.wellFormed (.lossOfFraming [0x5A, 0x01]) = true
      ∧ Instr.wellFormed (.lossOfFraming syncBytes) = false := by decide +kernel

theorem test_wellFormed_requestFrameComplete :
    Instr.wellFormed (.requestFrameComplete (requestFrame .identify).chars) = true
      ∧ Instr.wellFormed (.requestFrameComplete ((requestFrame .identify).chars.dropLast)) = false
      ∧ Instr.wellFormed (.requestFrameComplete ((requestFrame .identify).chars ++ [0])) = false := by decide +kernel

theorem test_wellFormed_badFrameRequest :
    Instr.wellFormed (.badFrameRequest ⟨[0, 0, 1, 0, 0], false⟩) = true
      ∧ Instr.wellFormed (.badFrameRequest (requestFrame .identify)) = false := by decide +kernel

theorem test_wellFormed_unknownKindRequest :
    Instr.wellFormed (.unknownKindRequest (Wire.frameOf 0x7F []).chars) = true
      ∧ Instr.wellFormed (.unknownKindRequest (requestFrame .identify).chars) = false := by decide +kernel

/-! ## The bytes of the links -/

/-- Section 11.4: the bytes of the BID, 13 in all, and they are examined as that BID. -/
theorem test_bid_bytes :
    (SwIn.bid exampleBid).bytes.take 12
        = [0x21, 0x0A, 0x30, 0xFF, 0xFF, 0x0A, 0x10, 0x23, 0x02, 0x01, 0x00, 0x07]
      ∧ examine ([0x21, 0x0A, 0x30, 0xFF, 0xFF, 0x0A, 0x10, 0x23, 0x02, 0x01, 0x00, 0x07]
          ++ [Wire.crc8 [0x21, 0x0A, 0x30, 0xFF, 0xFF, 0x0A, 0x10, 0x23, 0x02, 0x01, 0x00, 0x07]])
        = .good (.bid exampleBid) 13 := by decide +kernel

/-- Section 11.4: the bytes of the AWARD. -/
theorem test_award_bytes :
    (SwOut.award 3 0x0201).bytes.take 5 = [0x41, 0x03, 0x30, 0x02, 0x01]
      ∧ (SwOut.award 3 0x0201).bytes.length = 6 := by decide +kernel

/-- Section 11.4: the characters of the TEST-BID after its start marker, 16 characters with it. -/
theorem test_testBid_chars :
    (requestFrame (.testBid exampleBid)).chars.take 13
        = [0x00, 0x0A, 0x60, 0x30, 0xFF, 0xFF, 0x0A, 0x10, 0x23, 0x02, 0x01, 0x00, 0x07]
      ∧ (requestFrame (.testBid exampleBid)).chars.length = 15 := by decide +kernel

/-- Section 11.4: the reply of the TEST-BID, 7Eh, 00h, 06h, 60h, 00h, 00h, 30h, 02h, 01h, 00h and its CRC-16. -/
theorem test_testBid_reply :
    after (.testBid { exampleBid with port := 15 }) (openFor .rehearsal)
      (fun t => t.mg.outq.map (fun f => f.bytes.take 10)
        == [[0x7E, 0x00, 0x06, 0x60, 0x00, 0x00, 0xF0, 0x02, 0x01, 0x00]]) = true := by decide +kernel

/-! ## One step of a command -/

/-- R40, Table 3.7: the entry of the lower number wins, and entry 63, which compares nothing, takes what is left. -/
theorem test_lookup :
    let s := ((State.reset.setSource 0 { anySource 0 with matchBase := 0x0A1000, matchMask := 0x0000FF }).setSource 1
      { anySource 0 with matchBase := 0x0A1000, matchMask := 0x000FFF }).setSource 63 (anySource 0)
    s.lookup 0x0A1023 = some 0 ∧ s.lookup 0x0A1523 = some 1 ∧ s.lookup 0x0B0001 = some 63 := by decide +kernel

/-- R53, R72: on a LIVE port with credit an accepted bid is awarded at once; FB and CB are charged its length; the pass that
then yields nothing leaves the run CLOSED (R70). -/
theorem test_bid_awarded :
    after (.bid (bidAt15 9)) (openFor .live) (fun t =>
      t.sw.outq == [.award 15 9] && t.pool.free == 2047 && ((t.port 15).row 15).fb == 100000 - 65536
        && ((t.port 15).row 15).cb == 200000 - 65536 && (t.port 15).run == none) = true := by decide +kernel

/-- Section 3.8, event 3: a tag in use is declined DUPLICATE_TAG with its fault. -/
theorem test_bid_duplicate :
    after (.bid (bidAt15 0xFFFF)) (busy .frozen) (fun t =>
      t.sw.outq == [.decline 15 0xFFFF .duplicateTag] && t.pool.free == 2046
        && t.faults.held.any (fun f => f.kind == .duplicateTag && f.cls == some 15 && f.source == some 63
          && f.address == some 0x0A1023)) = true := by decide +kernel

/-- R58: a queued record is REMOVED, an awarded one is LATE. -/
theorem test_withdraw :
    after (.withdraw 15 0xFFFF) (busy .live) (fun t =>
      t.sw.outq == [.withdrawAnswer 15 0xFFFF .removed] && ((t.port 15).row 15).queue == [] && t.pool.free == 2047)
      = true
    ∧ after (.withdraw 15 0) (busy .live) (fun t => t.sw.outq == [.withdrawAnswer 15 0 .late]) = true := by
  decide +kernel

/-- R86: the refund is length less moved, to both accounts of a FLOOR record; the freed place is awarded again. -/
theorem test_finish :
    after (.finish (finishAt15 0)) (busy .live) (fun t =>
      t.sw.outq == [.award 15 0xFFFF] && ((t.port 15).row 15).fb == 100000 + 3072 - 4096
        && ((t.port 15).row 15).cb == 200000 + 3072 - 4096 && (t.source 63).outstanding == 1) = true := by
  decide +kernel

/-- R110: a fall to DOWN starts the hold-down timer at 200 × 100 µs, the cold setting. -/
theorem test_grade_fall :
    after (.grade 15 .down) (busy .live) (fun t =>
      (t.port 15).holdDownTimer == some 20000 && t.mg.notices.gradePorts == 0x8000) = true := by decide +kernel

/-- Section 12.4, step of the strand: the queue is declined PORT_DOWN, the awarded record stays. -/
theorem test_holdDownExpiry :
    after (.holdDownExpiry 15)
      ((busy .live).mapPort 15 (fun P => { P with grade := .down, holdDownTimer := some 100 })) (fun t =>
        t.sw.outq == [.decline 15 0xFFFF .portDown] && (t.port 15).stranded && (t.port 15).awards.length == 1
          && t.mg.notices.strandPorts == 0x8000 && t.timeBase == 100) = true := by decide +kernel

/-- R96: FORGET drops every record and is answered. -/
theorem test_forget :
    after .forget (busy .live) (fun t =>
      t.sw.outq == [.forgotten] && t.pool.free == 2048 && (t.port 15).awards == [] && (t.source 63).outstanding == 0)
      = true := by decide +kernel

/-- R90: a lapse is told by LAPSE and FINISH_LAPSE, without a refund. -/
theorem test_deadlineExpiry :
    after (.deadlineExpiry 15 0) (busy .frozen) (fun t =>
      t.sw.outq == [.lapse 15 0] && ((t.port 15).row 15).fb == 100000 && t.timeBase == 50000
        && t.faults.held.any (fun f => f.kind == .finishLapse)) = true := by decide +kernel

/-- Table 2.3: the second floor accrual at e = 307 with R × T = 62,500 at FULL grade. -/
theorem test_accrual :
    let P := { Port.cold.setRow 15 { mainRow 0 0 [] with e := 307, rf := 3248 } with
      grade := .full, settings := { PortSettings.cold with baseRate := 3125 }, loadedPeriod := 20 }
    (P.accrue.row 15).fb = 18738 ∧ (P.accrue.row 15).rf = 2400 := by decide +kernel

/-- Table 2.5: the effective shares of rows A and C at HALF and at QUARTER grade. -/
theorem test_effectiveShares :
    let row := fun (pr : Bool) (f c : Nat) =>
      { Contract.cold with valid := true, isProtected := pr, floorShare := f, ceilingShare := c }
    let cs := [row true 256 400, row true 200 300, row false 300 600, row false 150 1024]
    effectiveShares 2 cs (row true 256 400) = (512, 512) ∧ effectiveShares 2 cs (row false 300 600) = (74, 600)
      ∧ effectiveShares 4 cs (row true 256 400) = (574, 574) ∧ effectiveShares 4 cs (row false 300 600) = (0, 600) := by
  decide +kernel

/-- R26: at an accrual expiry the pending commit is applied, and the queue of a withdrawn row is declined. -/
theorem test_accrualTimerExpiry :
    after (.accrualTimerExpiry 15)
      { (busy .frozen).mapPort 15 (fun P => { P with commitStatus := .pending }) with groups := [0x8000] } (fun t =>
        t.sw.outq == [.decline 15 0xFFFF .allotmentWithdrawn] && (t.port 15).commitStatus == .applied
          && t.mg.notices.pending == 2 && t.groups == []) = true := by decide +kernel

/-- R121, R126: a damaged frame is discarded whole and starts the check pulse. -/
theorem test_damagedFrame :
    after (.damagedFrame [0x5A, 0x00, 0xFF]) synced (fun t =>
      t.sw.rx == [] && t.sw.link == .synced && t.sw.checkPulse == some 2 && t.pins.alertLow) = true := by
  decide +kernel

/-- R122, R124: a loss of framing discards one byte and enters RESYNC, where the bytes that remain are hunted over up to the
first good SYNC, though the body length after the discarded byte is that of another frame. -/
theorem test_lossOfFraming :
    after (.lossOfFraming [0x99]) synced (fun t => t.sw.rx == [] && t.sw.link == .resync && t.pins.alertLow) = true
      ∧ after (.lossOfFraming []) { synced with sw := { synced.sw with rx := [0x22, 0x0A, 0x5A] ++ syncBytes ++ [0x42] } }
          (fun t => t.sw.rx == syncBytes ++ [0x42] && t.sw.link == .resync) = true := by
  decide +kernel

/-- R124: the hunt discards what does not begin a SYNC. -/
theorem test_swByteReceived :
    after (.swByteReceived 0x77) { State.reset with sw := { State.reset.sw with rx := [0x5A, 0x00] } }
      (fun t => t.sw.rx == []) = true
    ∧ after (.swByteReceived 0x77) synced (fun t => t.sw.rx == [0x77]) = true := by decide +kernel

/-- R124: a good SYNC ends RESYNC and is answered by a SYNC. -/
theorem test_syncResyncEnd :
    after .syncResyncEnd State.reset (fun t =>
      t.sw.link == .synced && t.sw.outq == [.sync] && t.sw.sending && !t.pins.alertLow) = true := by decide +kernel

/-- R22: settings out of range are clamped, an undefined prescale is INCONSISTENT. -/
theorem test_portSet :
    after (.portSet 15 ⟨0, 0, 1, 255, 0, 0⟩) State.reset (fun t =>
      (t.port 15).settings == { baseRate := 1, interval := 1, prescale := .us16, window := 8, finishDeadline := 1,
                                holdDown := 0 }) = true
    ∧ after (.portSet 15 ⟨1, 1, 2, 1, 1, 0⟩) State.reset (fun t => (t.port 15).settings == .cold) = true := by
  decide +kernel

/-- R103: a LIVE port set OFF has its queue declined PORT_OFF; the awarded record stays. -/
theorem test_portMode :
    after (.portMode 15 0) (busy .live) (fun t =>
      t.sw.outq == [.decline 15 0xFFFF .portOff] && (t.port 15).mode == .off && (t.port 15).awards.length == 1)
      = true := by decide +kernel

/-- R5 to R7: f above c after clamping is INCONSISTENT; a lock is not broken. -/
theorem test_contractStage :
    after (.contractStage 15 15 ⟨1, 1, 1024, 1023, 1, 1, 0, 1, 0⟩) State.reset
      (fun t => (t.port 15).stagedRow 15 == .cold) = true
    ∧ after (.contractStage 15 15 ⟨1, 1, 65535, 65535, 0, 0, 0, 0, 0⟩) State.reset (fun t =>
      (t.port 15).stagedRow 15 == ⟨true, .main, 1024, 1024, 0, 1, false, 1, 0⟩) = true := by
  decide +kernel

/-- R11, R12: an accepted commit makes its ports PENDING, and one group of them. -/
theorem test_commit :
    after (.commit 0x8001) State.reset (fun t =>
      (t.port 0).commitStatus == .pending && (t.port 1).commitStatus == .none && (t.port 15).commitStatus == .pending
        && t.groups == [0x8001]) = true := by decide +kernel

/-- R56: POOL-SET keeps the high mark above the low mark, and asserts PAUSE at once where the count is at the low mark. -/
theorem test_poolSet :
    after (.poolSet 65535 0) (busy .live) (fun t =>
      t.pool.lowMark == 2047 && t.pool.highMark == 2048 && t.pool.pause && t.pins.pause
        && t.mg.notices.pending == 8) = true := by decide +kernel

/-- R162: an award on a port in REHEARSAL writes an entry and reserves a place. -/
theorem test_testBid :
    after (.testBid (bidAt15 9)) (openFor .rehearsal) (fun t =>
      t.sw.outq == [] && t.log.reserved == 1 && t.log.entries.length == 1 && t.mg.notices.pending == 32) = true := by
  decide +kernel

/-- R134: a divider of 0 is stored as 2, and takes effect with the end of the reply. -/
theorem test_lineRate :
    after (.lineRate 0) State.reset (fun t => t.mg.divider == 2 && t.mg.lineDivider == 54) = true := by decide +kernel

/-- R158, R159: a new selection clears the counters; a read that clears gives the counts first. -/
theorem test_counterRead :
    let s := State.reset.mapPort 15 (fun P => { P with counters := ⟨.lapses, 3, 5, 2⟩ })
    after (.counterRead 15 1) s (fun t => (t.port 15).counters == ⟨.lapses, 3, 0, 0⟩
        && t.mg.outq == [.reply ⟨0x54, .ok, false, [15, 7, 3, 0, 0, 0, 5, 0, 0, 0, 2], .nothing⟩]) = true := by
  decide +kernel

/-- R147, R148: the resets. -/
theorem test_resets :
    after .coldResetAssert (busy .live) (fun t => t.pins == ⟨false, false, true, false⟩) = true
      ∧ after .warmReset { (busy .live) with mg := { State.reset.mg with resetStage := .replySent } } (fun t =>
        t.pool.free == 2048 && t.sw.outq == [.forgotten] && (t.port 15).mode == .live && (t.port 15).awards == []) = true
      := by decide +kernel


/-! ## Witnesses: states and operands that meet the hypotheses of each statement, clause by clause -/

/-- A fresh management link unit serves whatever comes next. -/
theorem fresh_requestNext {s : State} (hp : s.pins.rstN = true) (hm : s.mg = State.reset.mg) (v : Verdict) :
    s.requestNext v := by
  refine ⟨hp, by rw [hm]; decide, ?_, ?_⟩
  · intro a h; rw [hm] at h; exact nomatch h
  · intro f h; rw [hm] at h; exact nomatch h

/-- A fresh SYNCED switch link unit examines whatever comes next. -/
theorem fresh_frameNext {s : State} (hp : s.pins.rstN = true) (hw : s.sw = synced.sw) (f : SwIn) : s.frameNext f :=
  ⟨hp, by rw [hw]; rfl, by rw [hw]; decide, .inl (by rw [hw]; rfl)⟩

theorem reset_requestNext (v : Verdict) : State.reset.requestNext v := fresh_requestNext rfl rfl v
theorem busy_requestNext (m : Mode) (v : Verdict) : (busy m).requestNext v := fresh_requestNext rfl rfl v
theorem openFor_requestNext (m : Mode) (v : Verdict) : (openFor m).requestNext v := fresh_requestNext rfl rfl v
theorem busy_frameNext (m : Mode) (f : SwIn) : (busy m).frameNext f := fresh_frameNext rfl rfl f
theorem openFor_frameNext (m : Mode) (f : SwIn) : (openFor m).frameNext f := fresh_frameNext rfl rfl f

theorem busy_tagsUnique (m : Mode) : (busy m).TagsUnique := by
  cases m <;> (unfold State.TagsUnique; decide +kernel)

/-- Full receive buffer, and 255 bytes in it; 4,000 and 4,001 frames in the outbound queue. -/
def withRx (link : LinkState) (n : Nat) (q : Nat) : State :=
  { State.reset with sw := { State.reset.sw with
      link := link, rx := List.replicate n 0x5A, outq := List.replicate q .sync } }

theorem witness_StepRunsTheFrontCommand :
    ({ State.reset with pending := [.identify, .forget] } : State).pending = .identify :: [.forget] := rfl

theorem witness_IdleStepLetsOneMicrosecondPass :
    let s : State := { State.reset with mg := { State.reset.mg with assembly := some ⟨[], 1728⟩ } }
    let whole : State := { State.reset with mg := { State.reset.mg with assembly := some ⟨(requestFrame .identify).chars, 0⟩ } }
    s.pending = [] ∧ s.pins.rstN = true ∧ s.timerDue = false ∧ isComplete [] = false
      ∧ State.reset.pending = [] ∧ State.reset.timerDue = false ∧ State.reset.mg.assembly = none
      ∧ whole.timerDue = false ∧ isComplete (requestFrame .identify).chars = true := by decide +kernel

theorem witness_CommandsKeepTheQueue : ∃ t, exec .forget (busy .live) = .next t := ⟨_, rfl⟩

theorem witness_NoEventWhileResetIsLow :
    ({ State.reset with pins := { State.reset.pins with rstN := false } } : State).pins.rstN = false
      ∧ Instr.identify ≠ .coldResetAssert ∧ Instr.identify ≠ .coldResetRelease := by decide

theorem witness_RequestFramesReadBack :
    requestParts (.portMode 15 3) = some (0x12, [15, 3]) ∧ (0 : BitVec 16) ≠ Wire.crc16 [0, 0, 1]
      ∧ (List.replicate 65535 (0 : Byte)).length < 65536 ∧ ([15, 3] : List Byte).length ≠ [15].length :=
  ⟨rfl, by decide +kernel, by rw [List.length_replicate]; decide, by decide⟩

/-- 7Fh is the kind of no request (Table 11.3). -/
theorem witness_RequestFramesReadBack_unknown (i : Instr) (b : List Byte) : requestParts i ≠ some (0x7F, b) := by
  cases i <;> simp [requestParts]

theorem witness_SwitchFramesReadBack :
    (0x20 : Byte) ∉ [0x21, 0x22, 0x23, 0x24, 0x2E, 0x5A] ∧ (2 : Byte) ≠ BitVec.ofNat 8 Wire.SwKind.grade.bodyLength
      ∧ ([0xF3] : List Byte).length = Wire.SwKind.grade.bodyLength ∧ (0 : Byte) ≠ Wire.crc8 [0x24, 1, 0xF3]
      ∧ (∀ c ∈ ([3, 5, 15] : List (BitVec 4)), c ∉ ([0, 1, 2, 4] : List (BitVec 4)))
      ∧ (0xF4 : Byte).extractLsb' 0 4 ∈ ([0, 1, 2, 4] : List (BitVec 4)) ∧ Wire.SwKind.sync ≠ .grade := by decide +kernel

/-- A port with a queued and an awarded record, an idle step, and a command in front. -/
def busyWaiting (m : Mode) : State := { busy m with pending := [.finish (finishAt15 0)] }

theorem witness_PinsFollowTheState :
    (busyWaiting .live).PinsFollow ∧ ∃ t, step (busyWaiting .live) = .next t :=
  ⟨by unfold State.PinsFollow; decide +kernel, _, rfl⟩

theorem witness_EveryRecordIsAccounted :
    (busyWaiting .live).RecordsAccounted ∧ ∃ t, step (busyWaiting .live) = .next t :=
  ⟨by unfold State.RecordsAccounted; decide +kernel, _, rfl⟩

theorem witness_TagsStayUnique :
    (busyWaiting .live).TagsUnique ∧ ∃ t, step (busyWaiting .live) = .next t :=
  ⟨by unfold State.TagsUnique; decide +kernel, _, rfl⟩

theorem witness_AccountsStayBounded :
    (busyWaiting .live).AccountsBounded ∧ ∃ t, step (busyWaiting .live) = .next t :=
  ⟨by unfold State.AccountsBounded Row.Bounded; decide +kernel, _, rfl⟩

theorem witness_NoEligibleBidWaits :
    (busyWaiting .live).LadderLaw ∧ ∃ t, step (busyWaiting .live) = .next t :=
  ⟨by unfold State.LadderLaw; decide +kernel, _, rfl⟩

theorem witness_LocksAndTablesAlwaysHold :
    (busyWaiting .live).LocksHold ∧ (busyWaiting .live).TablesHold ∧ ∃ t, step (busyWaiting .live) = .next t :=
  ⟨by unfold State.LocksHold; decide +kernel,
    by unfold State.TablesHold Port.SharesHold Contract.InRange; decide +kernel, _, rfl⟩

theorem witness_GroupsFlagsAndBoundsHold :
    (busyWaiting .live).GroupsHold ∧ (busyWaiting .live).FlagsHold ∧ (busyWaiting .live).BoundsHold
      ∧ ∃ t, step (busyWaiting .live) = .next t := by
  have hs : (busyWaiting .live).sw = synced.sw := rfl
  have hm : (busyWaiting .live).mg = State.reset.mg := rfl
  have hf : (busyWaiting .live).faults = State.reset.faults := rfl
  refine ⟨?_, ⟨by unfold Port.ConditionHolds; decide +kernel, ?_, ?_, ?_⟩, ?_, _, rfl⟩
  · have h : ∀ p : PortNo, ((busyWaiting .live).port p).commitStatus ≠ .pending := by decide +kernel
    exact ⟨fun p => ⟨fun hp => absurd hp (h p), fun ⟨_, hg, _⟩ => nomatch hg⟩, .nil, fun _ hg => nomatch hg⟩
  · rw [hs]; exact fun h => nomatch h
  · rw [hf]; exact fun h => nomatch h
  · rw [hf]; exact fun _ => ⟨rfl, rfl⟩
  · refine ⟨by unfold Port.WindowHolds; decide +kernel, by unfold SourceEntry.InRange; decide +kernel, ?_⟩
    rw [hs, hm]
    refine ⟨by decide +kernel, by decide +kernel, by decide, by decide, by decide, by decide, ?_⟩
    exact fun f h => nomatch h

theorem witness_RehearsalLogHasItsPlaces :
    (busyWaiting .rehearsal).LogAccounted ∧ ∃ t, step (busyWaiting .rehearsal) = .next t :=
  ⟨by unfold State.LogAccounted; decide +kernel, _, rfl⟩

theorem witness_OnlyItsCommandChangesAField :
    (∃ t, exec (.commit 0xFFFF) (busy .live) = .next t) ∧ Instr.commit 0xFFFF ≠ .coldResetRelease :=
  ⟨⟨_, rfl⟩, by decide⟩

/-- A fault held by an otherwise empty record. -/
def holding (k : FaultKind) : FaultUnit :=
  { held := some (State.reset.plainFault k), moreMinor := false, moreMajor := false, kindsSeen := 0,
    ignoreMinor := false }

theorem witness_ReportedFaultActsOnTheRecord :
    State.reset.faults.held = none ∧ (holding .linkCheck).held.any (fun f => f.kind.severity == .minor) = true
      ∧ (holding .linkResync).held.any (fun f => f.kind.severity == .major) = true := by decide

theorem witness_NoticeCauseCallsForANotice :
    ((0x3F#6).getLsbD NoticeKind.rehearsal.index = true ∧ MgOut.notice none ∉ State.reset.mg.outq)
      ∧ ¬ (State.reset.mg.enables.getLsbD NoticeKind.fault.index = true ∧ MgOut.notice none ∉ State.reset.mg.outq) := by
  decide

theorem witness_EndOfEventBeginsTheNextFrames :
    let r : MgOut := .reply ⟨0x01, .ok, false, [], .nothing⟩
    let mg := fun (p e : NoticeSet) (q : List MgOut) =>
      { State.reset.mg with notices := ⟨p, 0, 0⟩, enables := e, outq := q }
    State.reset.pins.rstN = true ∧ (mg 32 32 []).sending = false ∧ (mg 32 32 []).resetStage ≠ .replySent
      ∧ (mg 32 32 []).notices.pending &&& (mg 32 32 []).enables ≠ 0 ∧ (mg 32 32 [r, r]).outq = r :: [r]
      ∧ (mg 32 32 [.notice none, r]).outq = .notice none :: [r]
      ∧ (mg 1 32 [.notice none, r]).notices.pending &&& (mg 1 32 []).enables = 0
      ∧ ∀ f ∈ (mg 1 32 [.notice none, r]).outq, f = .notice none ∨ f = r := by decide

theorem witness_PauseFollowsTheMarks :
    (busy .live).requestNext (.request (.poolSet 0 1)) ∧ (busy .live).pool.pause = false
      ∧ ¬ (busy .live).pool.free + 1 ≤ (busy .live).pool.lowMark
      ∧ (let s : State := { busy .live with pool := ⟨2046, 2047, 2048, false⟩ }; s.pool.free + 1 ≤ s.pool.lowMark) :=
  ⟨busy_requestNext _ _, by decide +kernel⟩

theorem witness_QueuesAreDeclinedInOrder :
    (busy .live).requestNext (.request (.portFlush 16)) ∧ 16 ≤ (16 : Byte).toNat ∧ (15 : Byte).toNat = (15 : PortNo).val
      ∧ ((busy .live).port 15).queued = [record 0xFFFF] ∧ (busy .live).pool.lowMark < (busy .live).pool.highMark
      ∧ ¬ (busy .live).pool.returnsAssert [record 0xFFFF]
      ∧ Pool.returnsAssert ⟨2046, 2047, 2048, false⟩ [record 0xFFFF] :=
  ⟨busy_requestNext _ _, by unfold Pool.returnsAssert; decide +kernel⟩

/-- R55, R157: PAUSE asserted by the first return is negated where the second reaches the high mark; counter A stops at its
greatest value, and counter B counts the records of the selected class only. -/
theorem test_afterReturns :
    (Pool.mk 4 5 6 false).afterReturns [record 0] = ⟨5, 5, 6, true⟩
      ∧ (Pool.mk 4 5 6 false).afterReturns [record 0, record 1] = ⟨6, 5, 6, false⟩
      ∧ CounterPair.afterDeclines ⟨.declines, 15, 4294967294, 7⟩ [record 0, { record 1 with cls := 0 }]
        = ⟨.declines, 15, 4294967295, 8⟩ := by decide +kernel

/-- The rows of Table 2.4. -/
def table24 : List Contract :=
  let row := fun (pr : Bool) (f c : Nat) =>
    { Contract.cold with valid := true, isProtected := pr, floorShare := f, ceilingShare := c }
  [row true 256 400, row true 200 300, row false 300 600, row false 150 1024, Contract.cold]

theorem witness_EffectiveSharesFitThePort :
    Grade.full ≠ .down ∧ Grade.quarter ≠ .down
      ∧ (∀ c ∈ table24, c.floorShare ≤ c.ceilingShare ∧ c.ceilingShare ≤ 1024)
      ∧ ((table24.filter (fun c => c.valid)).map (fun c => c.floorShare)).sum ≤ 1024
      ∧ table24.any (fun c => c.valid && c.isProtected) = true ∧ table24.any (fun c => c.valid && !c.isProtected) = true
      ∧ table24.any (fun c => !c.valid) = true := by decide

theorem witness_AccrualIsExact :
    ((busyPort .live).row 15).contract.valid = true ∧ ((busyPort .live).row 0).contract.valid = false
      ∧ { busyPort .live with grade := .down }.grade = .down ∧ ((busyPort .live).row 15).Bounded := by
  unfold Row.Bounded; decide +kernel

/-- Row 15 in a lane, queued, with credit on both accounts. -/
def portWith (l : Lane) (run : Option Run) : Port :=
  let r := mainRow 1 1 [record 0]
  { Port.cold.setRow 15 { r with contract := { r.contract with lane := l } } with run := run }

theorem witness_PassTakesTheStepsInOrder :
    (portWith .prime none).scan .prime .floor = some 15 ∧ (portWith .main none).scan .prime .floor = none
      ∧ (portWith .main none).scan .main .floor = some (15 + 1 + Fin.ofNat 16 15) ∧ Port.cold.scan .main .floor = none
      ∧ (portWith .main (some ⟨15, 63, 7, 1⟩)).run = some ⟨15, 63, 7, 1⟩
      ∧ ((portWith .main (some ⟨15, 63, 7, 1⟩)).row 15).queue = [record 0]
      ∧ (portWith .main (some ⟨15, 63, 8, 1⟩)).run = some ⟨15, 63, 8, 1⟩ := by decide +kernel

theorem witness_AwardMovesTheHeadRecord :
    ((busy .live).port 15).mode ≠ .rehearsal ∧ (((busy .live).port 15).row 15).queue = record 0xFFFF :: []
      ∧ ((busy .rehearsal).port 15).mode = .rehearsal
      ∧ (((busy .rehearsal).port 15).row 15).queue = record 0xFFFF :: [] ∧ (busy .rehearsal).log.entries = [] := by
  decide +kernel

/-- R162: a second rehearsal award appends its entry, reserves a place, and is no cause of the REHEARSAL notice. -/
theorem test_rehearsal_award :
    let old : LogEntry := ⟨.lapse, 0, 5, 1, .ceiling, 2, 3⟩
    let s : State := { busy .rehearsal with log := ⟨[old], 1⟩, timeBase := 9 }
    let t := s.award 15 ⟨15, .floor, .scan .main⟩
    t.log = ⟨[old, ⟨.award, 15, 0xFFFF, 15, .floor, 4096, 9⟩], 2⟩ ∧ t.sw = s.sw ∧ t.mg = s.mg := by decide +kernel

/-- Port 15 LIVE and open, with one record queued in its row 15. -/
def queuedFor : State :=
  (openFor .live).mapPort 15 (fun P => P.setRow 15 (mainRow 100000 200000 [record 0]))

/-- R64: a pass that yields a bid, and one that yields nothing, on ports that may award. -/
theorem witness_LadderEndsWithNothingEligible_passes :
    queuedFor.mayAward 15 = true
      ∧ (queuedFor.port 15).pass = ({ queuedFor.port 15 with run := none }, some ⟨15, .floor, .scan .main⟩)
      ∧ (openFor .live).mayAward 15 = true
      ∧ ((openFor .live).port 15).pass = ({ (openFor .live).port 15 with run := none }, none) := by decide +kernel

theorem witness_LadderEndsWithNothingEligible :
    ((openFor .live).ladder 15).mayAward 15 = true ∧ (busy .live).mayAward 15 = false
      ∧ ((openFor .live).port 15).awards.length < ((openFor .live).port 15).settings.window := by decide +kernel

/-- A commit is pending on port 15, and its staged row 15 is invalid. -/
def committing : State :=
  { (busy .frozen).mapPort 15 (fun P => { P with commitStatus := .pending }) with groups := [0x8000] }

theorem witness_CommitReplacesTheActiveSet :
    (committing.port 15).commitStatus = .pending
      ∧ (∀ c, ((committing.port 15).row c).contract.valid = false → ((committing.port 15).row c).queue = [])
      ∧ ((committing.port 15).row 15).contract.valid = true ∧ ((committing.port 15).stagedRow 15).valid = false
      ∧ committing.pool.lowMark < committing.pool.highMark ∧ portMask 15 ∈ committing.groups
      ∧ Pool.returnsAssert ⟨2046, 2047, 2048, false⟩ ((committing.port 15).row 15).queue
      ∧ (({ committing.port 15 with staged := Vector.replicate 16 mainContract } : Port).stagedRow 15).valid = true := by
  unfold Pool.returnsAssert; decide +kernel

theorem witness_BytesJoinTheReceiveBuffer :
    (withRx .synced 255 0).pins.rstN = true ∧ (withRx .synced 255 0).sw.rx.length < 256
      ∧ 256 ≤ (withRx .synced 256 4001).sw.rx.length ∧ (withRx .resync 255 4001).sw.rx.length < 256
      ∧ 4000 < (withRx .resync 255 4001).sw.outq.length ∧ (withRx .resync 255 4000).sw.outq.length ≤ 4000
      ∧ 256 ≤ (withRx .resync 256 4001).sw.rx.length := by
  have hr : ∀ l n q, (withRx l n q).sw.rx.length = n := fun _ _ _ => List.length_replicate
  have hq : ∀ l n q, (withRx l n q).sw.outq.length = q := fun _ _ _ => List.length_replicate
  rw [hr, hr, hr, hq, hq, hr]
  decide

/-- A frame command in RESYNC and while examination is deferred, with room for its bytes and with one place too few, and
behind an incomplete frame. -/
theorem witness_BytesJoinTheReceiveBuffer_frames :
    carriesBytes (.bid greatBid) (SwIn.bid greatBid).bytes ∧ carriesBytes (.damagedFrame []) []
      ∧ (withRx .resync 3 0).sw.link = .resync ∧ (SwIn.bid greatBid).bytes.length = 13
      ∧ 256 - (withRx .synced 243 4001).sw.rx.length = 13 ∧ 256 - (withRx .synced 244 4001).sw.rx.length = 12
      ∧ 4000 < (withRx .synced 243 4001).sw.outq.length ∧ (withRx .synced 253 0).sw.rx.length + 3 ≤ 256
      ∧ examine [0x21] = .incomplete ∧ examine ([0x21] ++ SwIn.forget.bytes) = .lost := by
  have hr : ∀ l n q, (withRx l n q).sw.rx.length = n := fun _ _ _ => List.length_replicate
  have hq : ∀ l n q, (withRx l n q).sw.outq.length = q := fun _ _ _ => List.length_replicate
  rw [hr, hr, hr, hq]
  exact ⟨.inl ⟨.bid greatBid, nofun, rfl, rfl⟩, .inr (.inl rfl), rfl, by decide +kernel⟩

/-- R119, R124, R132: a FORGET that arrives in RESYNC is hunted over and drops nothing. -/
theorem test_forget_in_resync :
    after .forget { busy .live with sw := State.reset.sw } (fun t =>
      t.sw.rx == [] && t.sw.outq == [] && t.pool.free == 2046) = true := by decide +kernel

theorem witness_FailingFramesAreDiscarded :
    synced.pins.rstN = true ∧ synced.sw.link = .synced ∧ synced.sw.outq.length ≤ 4000 ∧ synced.sw.rx = []
      ∧ examine [0x5A, 0x00, 0xFF] = .damaged 3 ∧ examine [0x99] = .lost ∧ examine [0x5A, 0x01] = .lost := by
  decide +kernel

theorem witness_SyncEndsResync :
    State.reset.pins.rstN = true ∧ State.reset.sw.link = .resync ∧ State.reset.sw.outq.length ≤ 4000
      ∧ State.reset.sw.rx = [] ∧ (busy .live).frameNext .sync ∧ synced.sw.link = .synced
      ∧ (let l := 0x5A :: syncBytes; syncBytes.isPrefixOf (hunt l) = true) :=
  ⟨rfl, rfl, by decide, rfl, busy_frameNext _ _, rfl, by decide +kernel⟩

theorem witness_PulseExpiresAndFramesLeave :
    let s : State := { synced with sw := { synced.sw with checkPulse := some 2, outq := [.sync, .sync], sending := true } }
    s.pins.rstN = true ∧ s.sw.checkPulse = some 2 ∧ s.sw.sending = true ∧ synced.sw.checkPulse = none
      ∧ synced.sw.sending = false := by decide

theorem witness_LookupFindsTheFirstMatch :
    ((openFor .live).source 63).valid = true ∧ ((openFor .live).source 63).matchMask = 0xFFFFFF
      ∧ (∀ d : EntryNo, d < 63 → ((openFor .live).source d).valid = false)
      ∧ (∀ e : EntryNo, (State.reset.source e).valid = false) := by decide +kernel

/-- The states of the checks of a bid: port 15 with its row, its source entry and the free count changed. -/
def checking (m : Mode) (P : Port → Port) (x : SourceEntry → SourceEntry) (free : Nat) : State :=
  let s := ((busy m).mapPort 15 P).setSource 63 (x ((busy m).source 63))
  { s with pool := { s.pool with free := free } }

/-- The states in which a bid meets each check of Table 3.4 (checks 2 to 9), and the one in which it passes. -/
def checkStates (m : Mode) : List State :=
  [checking m (fun P => { P with stranded := true }) id 2046, checking m id (fun x => { x with valid := false }) 2046,
   checking m id (fun x => { x with admission := .muted }) 2046, checking m (fun P => P.setRow 15 .cold) id 2046,
   checking m id id 2046, checking m id (fun x => { x with limit := 2 }) 2046,
   checking m (fun P => P.mapRow 15 (fun r => { r with contract := { r.contract with queueLimit := 1 } })) id 2046,
   checking m id id 0, checking m id id 1]

/-- Each of them gives the outcome of its check: the last but four for a tag in use. -/
theorem witness_bid_checks :
    ∀ m ∈ [Mode.live, .rehearsal],
      ((checkStates m).map (fun s => s.checkFrom2 greatBid)
          = [.decline .portDown none, .decline .unknownSource none, .decline .sourceMuted (some 63),
             .decline .noAllotment (some 63), .accept 63, .decline .sourceLimit (some 63),
             .decline .queueFull (some 63), .decline .poolFull (some 63), .accept 63])
        ∧ (busy m).checkFrom2 { greatBid with tag := 0xFFFF } = .decline .duplicateTag (some 63)
        ∧ (busy m).checkFrom2 { greatBid with tag := 0 } = .decline .duplicateTag (some 63) := by decide +kernel

theorem checkStates_fresh (m : Mode) :
    ∀ s ∈ checkStates m, s.pins.rstN = true ∧ s.mg = State.reset.mg ∧ s.sw = synced.sw ∧ (s.port 15).mode = m := by
  cases m <;> decide +kernel

theorem witness_BidIsAcceptedOrDeclined (m : Mode) :
    ∀ s ∈ checkStates m, s.frameNext (.bid greatBid) ∧ (s.port greatBid.port).mode = m :=
  fun s hs => let ⟨h1, _, h3, h4⟩ := checkStates_fresh m s hs; ⟨fresh_frameNext h1 h3 _, h4⟩

theorem witness_TestBidIsAcceptedOrDeclined (m : Mode) :
    ∀ s ∈ checkStates m, s.requestNext (.request (.testBid greatBid)) ∧ (s.port greatBid.port).mode = m :=
  fun s hs => let ⟨h1, h2, _, h4⟩ := checkStates_fresh m s hs; ⟨fresh_requestNext h1 h2 _, h4⟩

/-- Tag FFFFh is queued, tag 0 awarded, tag 1 held by nothing. -/
theorem busy_records (m : Mode) :
    (((busy m).port 15).row 15).queue = [] ++ record 0xFFFF :: [] ∧ ((busy m).port 15).awards = [] ++ awarded 0 :: []
      ∧ (∀ b ∈ ((busy m).port 15).records, b.tag ≠ 1) ∧ ((busy m).port 15).mode = m := by
  cases m <;> decide +kernel

theorem witness_WithdrawIsAnswered (m : Mode) (tag : Tag) :
    (busy m).frameNext (.withdraw 15 tag) ∧ (busy m).TagsUnique ∧ ((busy m).port 15).mode = m :=
  ⟨busy_frameNext _ _, busy_tagsUnique m, (busy_records m).2.2.2⟩

theorem witness_FinishEndsARecordOrIsStray (m : Mode) (tag : Tag) :
    (busy m).frameNext (.finish (finishAt15 tag)) ∧ (busy m).TagsUnique ∧ ((busy m).port 15).mode = m :=
  ⟨busy_frameNext _ _, busy_tagsUnique m, (busy_records m).2.2.2⟩

theorem witness_TestFinishEndsARecordOrIsStray (m : Mode) (tag : Tag) :
    (busy m).requestNext (.request (.testFinish (finishAt15 tag))) ∧ (busy m).TagsUnique ∧ ((busy m).port 15).mode = m :=
  ⟨busy_requestNext _ _, busy_tagsUnique m, (busy_records m).2.2.2⟩

theorem witness_GradeFrameActs (g : Grade) :
    (busy .live).frameNext (.grade 15 g) ∧ ((busy .live).port 15).grade ≠ .down
      ∧ (State.reset.port 15).grade = .down ∧ synced.frameNext (.grade 15 g) ∧ (synced.port 15).grade = .down
      ∧ ((busy .live).port 15).settings.holdDown ≠ 0
      ∧ ({ ((busy .live).port 15).settings with holdDown := 0 } : PortSettings).holdDown = 0 :=
  ⟨busy_frameNext _ _, by decide +kernel, by decide +kernel, fresh_frameNext rfl rfl _, by decide +kernel,
    by decide +kernel, rfl⟩

theorem witness_ForgetDropsTheRecords :
    (busy .live).frameNext .forget ∧ ((busy .live).port 15).mode ≠ .rehearsal ∧ ((busy .live).port 15).records ≠ []
      ∧ (busy .live).pool.lowMark < (busy .live).pool.free ∧ (busy .live).pool.lowMark < (busy .live).pool.highMark
      ∧ (busy .rehearsal).frameNext .forget ∧ ((busy .rehearsal).port 15).mode = .rehearsal :=
  ⟨busy_frameNext _ _, by decide +kernel, by decide +kernel, by decide +kernel, by decide +kernel, busy_frameNext _ _,
    by decide +kernel⟩

theorem witness_AccrualExpiryInOrder :
    (busy .live).pins.rstN = true ∧ committing.pins.rstN = true ∧ (committing.port 15).commitStatus = .pending
      ∧ ((busy .live).port 15).commitStatus ≠ .pending := by decide +kernel

theorem witness_RunTimerExpiryClosesTheRun :
    let s := fun n : Nat => (busy .live).mapPort 15 (fun P => { P with run := some ⟨15, 63, 7, n⟩ })
    (s 0).pins.rstN = true ∧ ((s 0).port 15).run = some ⟨15, 63, 7, 0⟩ ∧ ((s 500).port 15).run = some ⟨15, 63, 7, 500⟩
      ∧ ((busy .live).port 15).run = none := by decide +kernel

theorem witness_DeadlineExpiryLapsesTheRecord (m : Mode) :
    (busy m).pins.rstN = true ∧ (busy m).TagsUnique ∧ ((busy m).port 15).awards = [] ++ awarded 0 :: []
      ∧ (awarded 0).bid.tag = 0 ∧ ∀ a ∈ ((busy m).port 15).awards, a.bid.tag ≠ 1 :=
  ⟨rfl, busy_tagsUnique m, (busy_records m).2.1, rfl, by
    rw [(busy_records m).2.1]; decide⟩

theorem witness_HoldDownExpiryStrandsThePort :
    let s := (busy .live).mapPort 15 (fun P => { P with grade := .down, holdDownTimer := some 100 })
    s.pins.rstN = true ∧ (s.port 15).holdDownTimer = some 100 ∧ ((busy .live).port 15).holdDownTimer = none := by
  decide +kernel

theorem witness_CharactersFormFrames :
    let s := fun a : Assembly => { State.reset with mg := { State.reset.mg with assembly := some a } }
    State.reset.pins.rstN = true ∧ State.reset.mg.assembly = none
      ∧ (s ⟨[], 1728⟩).mg.assembly = some ⟨[], 1728⟩ ∧ isComplete [] = false
      ∧ (s ⟨(requestFrame .identify).chars, 1728⟩).mg.assembly = some ⟨(requestFrame .identify).chars, 1728⟩
      ∧ isComplete (requestFrame .identify).chars = true
      ∧ isComplete (requestFrame .identify).chars.dropLast = false := by decide +kernel

/-- A whole frame in assembly behind `n` frames in the inbound buffer. -/
def assembledBehind (n : Nat) : State :=
  { State.reset with mg := { State.reset.mg with
      assembly := some ⟨(requestFrame .identify).chars, 1728⟩
      inbound := List.replicate n (requestFrame .status) } }

/-- R136: behind three frames the frame joins the buffer, behind four it is dropped; REQUEST_FRAME_COMPLETE and the next
character both end its assembly, and a start marker begins another. -/
theorem witness_CharactersFormFrames_full :
    (assembledBehind 3).mg.inbound.length < 4 ∧ ¬ (assembledBehind 4).mg.inbound.length < 4
      ∧ after (.requestFrameComplete (requestFrame .identify).chars) (assembledBehind 3)
          (fun t => t.mg.inbound.length == 4 && !t.mg.dropped && t.mg.assembly == none) = true
      ∧ after (.requestFrameComplete (requestFrame .identify).chars) (assembledBehind 4)
          (fun t => t.mg.inbound.length == 4 && t.mg.dropped && t.mg.assembly == none) = true
      ∧ after (.mgCharacterReceived 0x7E) (assembledBehind 4)
          (fun t => t.mg.inbound.length == 4 && t.mg.dropped && t.mg.assembly == some ⟨[], 1728⟩) = true := by
  decide +kernel

/-- Fifteen replies queued, a RESET awaiting its warm reset, and another frame oldest, with room behind it or none. -/
theorem witness_FaultyFramesAreAnsweredAndRequestsWait_waits (f : RequestFrame) :
    let mg := State.reset.mg
    let s := fun m : MgUnit => { State.reset with mg := m }
    let r : MgOut := .reply ⟨0x01, .ok, false, [], .nothing⟩
    (s { mg with outq := List.replicate 15 r }).requestWaits (.request .identify) f
      ∧ (s { mg with resetStage := .awaiting }).requestWaits (.request .identify) f
      ∧ (s { mg with inbound := List.replicate 3 (requestFrame .status) }).requestWaits (.request .identify) f
      ∧ (s { mg with inbound := List.replicate 4 (requestFrame .status) }).requestWaits (.request .identify) f
      ∧ (s mg).requestWaits .badFrame (requestFrame .status) ∧ requestParts .identify ≠ none :=
  ⟨.inl (by decide), .inr (.inl nofun), .inr (.inr ⟨_, rfl, by decide +kernel⟩), .inr (.inr ⟨_, rfl, by decide +kernel⟩),
    .inr (.inr ⟨_, rfl, by decide +kernel⟩), nofun⟩

/-- R137: behind another frame a request waits, and its block does not act. -/
theorem test_request_waits :
    after (.portMode 15 0) { busy .live with mg := { State.reset.mg with inbound := [requestFrame .status] } } (fun t =>
      t.mg.inbound == [requestFrame .status, requestFrame (.portMode 15 0)] && t.mg.outq == []
        && (t.port 15).mode == .live) = true := by decide +kernel

theorem witness_FaultyFramesAreAnsweredAndRequestsWait :
    verdict ⟨[], true⟩ = .badFrame ∧ verdict ⟨[0, 0, 1, 0, 0], false⟩ = .badFrame
      ∧ State.reset.requestNext .badFrame
      ∧ verdict ⟨(Wire.frameOf 0x7F []).chars, false⟩ = .unknownKind ∧ State.reset.requestNext .unknownKind :=
  ⟨by decide +kernel, by decide +kernel, reset_requestNext _, by decide +kernel, reset_requestNext _⟩

theorem witness_ManagementFrameSent :
    let r := fun o : OnSent => MgOut.reply ⟨0x06, .ok, false, [], o⟩
    let s := fun q : List MgOut => { State.reset with mg := { State.reset.mg with outq := q, sending := true } }
    (s []).pins.rstN = true ∧ (s []).mg.sending = true ∧ State.reset.mg.sending = false
      ∧ (s [.notice none]).mg.outq = .notice none :: [] ∧ (s [r .nothing]).mg.outq = r .nothing :: []
      ∧ (s [r (.takeDivider 2)]).mg.outq = r (.takeDivider 2) :: []
      ∧ (s [r .warmReset]).mg.outq = r .warmReset :: [] := by decide

theorem witness_ReadsAnswerAndChangeNothing :
    (∀ i, (busy .live).requestNext (.request i)) ∧ 16 ≤ (16 : Byte).toNat ∧ (15 : Byte).toNat = (15 : PortNo).val
      ∧ 64 ≤ (64 : Byte).toNat ∧ (63 : Byte).toNat = (63 : EntryNo).val ∧ (2 : Byte) ≠ 0 ∧ (2 : Byte) ≠ 1 :=
  ⟨fun _ => busy_requestNext _ _, by decide⟩

theorem witness_LinkRequestsAct :
    (∀ i, State.reset.requestNext (.request i)) ∧ (1 : BitVec 16).toNat < 2 ∧ ¬ (2 : BitVec 16).toNat < 2
      ∧ (∃ j < 6, ((0x20 : Byte).extractLsb' 0 6).getLsbD j = true ∧ (0#6).getLsbD j = false
          ∧ (0x20#6).getLsbD j = true)
      ∧ ¬ ∃ j < 6, ((0x20 : Byte).extractLsb' 0 6).getLsbD j = true ∧ (0#6).getLsbD j = false
          ∧ (0x1F#6).getLsbD j = true :=
  ⟨fun _ => reset_requestNext _, by decide⟩

theorem witness_WarmResetDropsBidState :
    let s : State := { (busy .live) with mg := { State.reset.mg with resetStage := .replySent } }
    s.pins.rstN = true ∧ s.mg.resetStage = .replySent := by decide

theorem witness_PortSetStoresTheSettings :
    (∀ i, (busy .live).requestNext (.request i)) ∧ 16 ≤ (16 : Byte).toNat ∧ (15 : Byte).toNat = (15 : PortNo).val
      ∧ 2 ≤ (2 : Byte).toNat ∧ (1 : Byte).toNat < 2 ∧ ((busy .live).port 15).settings.window < max 1 (min 2 8)
      ∧ max 1 (min 1 8) ≤ ((busy .live).port 15).settings.window :=
  ⟨fun _ => busy_requestNext _ _, by decide +kernel⟩

theorem witness_PortModeChangesTheMode (m : Mode) :
    (∀ i, (busy m).requestNext (.request i)) ∧ ((busy m).port 15).mode = m ∧ ((busy m).port 15).awards ≠ []
      ∧ (∀ i, (openFor m).requestNext (.request i)) ∧ ((openFor m).port 15).mode = m
      ∧ ((openFor m).port 15).awards = [] ∧ 4 ≤ (4 : Byte).toNat ∧ 16 ≤ (16 : Byte).toNat
      ∧ (15 : Byte).toNat = (15 : PortNo).val :=
  ⟨fun _ => busy_requestNext _ _, (busy_records m).2.2.2, by rw [(busy_records m).2.1]; simp,
    fun _ => openFor_requestNext _ _, by cases m <;> decide +kernel, by cases m <;> decide +kernel, by decide⟩

theorem witness_SourceSetStoresTheEntry :
    (∀ i, (busy .live).requestNext (.request i)) ∧ 64 ≤ (64 : Byte).toNat ∧ (63 : Byte).toNat = (63 : EntryNo).val
      ∧ 16 ≤ (16 : Byte).toNat ∧ (15 : Byte).toNat < 16 ∧ 2 ≤ (2 : Byte).toNat ∧ (1 : Byte).toNat < 2
      ∧ 0 < ((busy .live).source 63).outstanding ∧ (1 : Address) ≠ ((busy .live).source 63).matchBase
      ∧ ((openFor .live).source 63).outstanding = 0 ∧ ∀ i, (openFor .live).requestNext (.request i) :=
  ⟨fun _ => busy_requestNext _ _, by decide, by decide, by decide, by decide, by decide, by decide, by decide +kernel,
    by decide +kernel, by decide +kernel, fun _ => openFor_requestNext _ _⟩

/-- Port 15 with row 15 valid and protected, and its cell locked with that row's floor share, 400. -/
def lockedPort : State :=
  synced.setPort 15 ((Port.cold.setRow 15 { mainRow 0 0 [] with contract := { mainContract with isProtected := true } }
    ).setLock 15 { locked := true, floor := 400 })

theorem lockedPort_requestNext (v : Verdict) : lockedPort.requestNext v := fresh_requestNext rfl rfl v

theorem witness_ContractStageWritesTheRow :
    (∀ i, lockedPort.requestNext (.request i)) ∧ (∀ i, committing.requestNext (.request i))
      ∧ (committing.port 15).commitStatus = .pending ∧ (lockedPort.port 15).commitStatus ≠ .pending
      ∧ (lockedPort.port 15).lockCell 15 = { locked := true, floor := 400 }
      ∧ consistentContract ⟨1, 1, 399, 400, 1, 1, 1, 1, 0⟩ = some ⟨true, .main, 399, 400, 1, 1, true, 1, 0⟩
      ∧ consistentContract ⟨1, 1, 400, 400, 1, 1, 1, 255, 65535⟩ = some ⟨true, .main, 400, 400, 1, 1, true, 255, 65535⟩
      ∧ consistentContract ⟨1, 3, 1, 1, 1, 1, 1, 1, 0⟩ = none ∧ consistentContract ⟨1, 2, 2, 1, 1, 1, 1, 1, 0⟩ = none :=
  ⟨fun _ => lockedPort_requestNext _, fun _ => fresh_requestNext rfl rfl _, by decide +kernel, by decide +kernel,
    by decide +kernel, by decide +kernel, by decide +kernel, by decide +kernel, by decide +kernel⟩

theorem witness_LockPinsTheFloor :
    (∀ i, lockedPort.requestNext (.request i)) ∧ (lockedPort.port 15).commitStatus ≠ .pending
      ∧ ((lockedPort.port 15).row 15).contract.valid = true
      ∧ ((lockedPort.port 15).row 15).contract.isProtected = true
      ∧ ((lockedPort.port 15).row 0).contract.valid = false
      ∧ (∀ i, committing.requestNext (.request i)) ∧ (committing.port 15).commitStatus = .pending
      ∧ 16 ≤ (16 : Byte).toNat ∧ (15 : Byte).toNat = (15 : PortNo).val :=
  ⟨fun _ => lockedPort_requestNext _, by decide +kernel, by decide +kernel, by decide +kernel, by decide +kernel,
    fun _ => fresh_requestNext rfl rfl _, by decide +kernel, by decide, by decide⟩

/-- A port whose staged floor shares sum to 1,025, one above the most that R11 admits. -/
def overcommitted : State :=
  synced.mapPort 15 (fun P => (P.setStaged 0 { mainContract with floorShare := 1 }).setStaged 15
    { mainContract with floorShare := 1024 })

theorem witness_CommitIsAcceptedForAllOrRefused :
    (∀ i, overcommitted.requestNext (.request i)) ∧ (overcommitted.port 15).stagedFloorSum = 1025
      ∧ ((overcommitted.mapPort 15 (fun P => P.setStaged 0 .cold)).port 15).stagedFloorSum = 1024
      ∧ (committing.port 15).commitStatus = .pending
      ∧ ((lockedPort.port 15).lockCell 15).brokenBy ((lockedPort.port 15).stagedRow 15) = true
      ∧ overcommitted.commitFailure 0x8000 = some (.overcommit, 15, none)
      ∧ committing.commitFailure 0x8000 = some (.busy, 15, none)
      ∧ lockedPort.commitFailure 0x8000 = some (.locked, 15, some 15) ∧ synced.commitFailure 0xFFFF = none :=
  ⟨fun _ => fresh_requestNext rfl rfl _, by decide +kernel, by decide +kernel, by decide +kernel, by decide +kernel,
    by decide +kernel, by decide +kernel, by decide +kernel, by decide +kernel⟩

theorem witness_AbortCommitAbortsPendingPorts :
    (∀ i, committing.requestNext (.request i)) ∧ committing.portsWithStatus 0x8000 .pending = 0x8000
      ∧ committing.portsWithStatus 0x7FFF .pending = 0 :=
  ⟨fun _ => fresh_requestNext rfl rfl _, by decide +kernel⟩

theorem witness_FaultRequestsAct :
    (∀ i, State.reset.requestNext (.request i)) ∧ (1 : Byte).toNat < 2 ∧ 2 ≤ (2 : Byte).toNat :=
  ⟨fun _ => reset_requestNext _, by decide⟩

theorem witness_CounterRequestsAct :
    (∀ i, State.reset.requestNext (.request i)) ∧ 16 ≤ (16 : Byte).toNat ∧ (15 : Byte).toNat = (15 : PortNo).val
      ∧ 8 ≤ (8 : Byte).toNat ∧ CounterEvent.lapses.code = 7 ∧ 2 ≤ (2 : Byte).toNat :=
  ⟨fun _ => reset_requestNext _, by decide⟩

/-- The log with `n` entries and no reserved place. -/
def logged (n : Nat) : State :=
  { State.reset with log := { entries := List.replicate n ⟨.award, 15, 0, 0, .floor, 1, 0⟩, reserved := 0 } }

theorem witness_RehearsalReadRemovesEntries (n : Nat) :
    (logged n).requestNext (.request .rehearsalRead) ∧ (logged n).log.entries.length + (logged n).log.reserved = n :=
  ⟨fresh_requestNext rfl rfl _, by simp [logged]⟩

end Sys2Proof.Tests
end

section
/-! PROOFS. A request frame is read back as its request, and so a request that is next is answered with what its block
gives (R137, R138, R170). -/

namespace Sys2Proof.Wire

/-- The body of a request has the length that Table 11.3 fixes for its kind. -/
theorem requestLength_of_requestParts {i : Instr} {kind : Byte} {body : List Byte}
    (h : requestParts i = some (kind, body)) : requestLength kind = some body.length := by
  cases i <;> cases h <;> rfl

/-- The body of a request is read back as that request (Table 11.3). -/
theorem decodeRequest_of_requestParts {i : Instr} {kind : Byte} {body : List Byte}
    (h : requestParts i = some (kind, body)) : decodeRequest kind body = some i := by
  cases i <;> cases h <;>
    simp [decodeRequest, body0, body1, body2, body3, bodyWord, bodyWords, bytes2, bytes3, settingsOfBytes, settingsBytes,
      sourceOfBytes, sourceBytes, contractOfBytes, contractBytes]

theorem requestLength_lt {kind : Byte} {n : Nat} (h : requestLength kind = some n) : n < 65536 := by
  have bound : ∀ k : Byte, ∀ m ∈ requestLength k, m < 65536 := by decide +kernel
  exact bound kind n h

/-- A frame whose body has the length of its kind and is read as a request is that request (R138). -/
theorem verdict_frameOf {kind : Byte} {body : List Byte} {i : Instr}
    (hlen : requestLength kind = some body.length) (hdec : decodeRequest kind body = some i) :
    verdict (frameOf kind body) = .request i := by
  have hcrc : crc16 (frameOf kind body).chars = 0 := crc16_append_self _
  have hword : (word2 ((BitVec.ofNat 16 body.length).extractLsb' 8 8)
      ((BitVec.ofNat 16 body.length).extractLsb' 0 8)).toNat = body.length := by
    rw [word2_bytes2, BitVec.toNat_ofNat, Nat.mod_eq_of_lt (requestLength_lt hlen)]
  unfold verdict
  rw [hcrc]
  simp only [frameOf, bytes2, List.cons_append, List.nil_append, hlen, hword, List.take_left, hdec]
  simp

/-- The frame of a request is examined as that request (R138, R170). -/
theorem verdict_requestFrame {i : Instr} {kind : Byte} {body : List Byte}
    (h : requestParts i = some (kind, body)) : verdict (requestFrame i) = .request i := by
  have hframe : requestFrame i = frameOf kind body := by simp only [requestFrame, h]
  rw [hframe]
  exact verdict_frameOf (requestLength_of_requestParts h) (decodeRequest_of_requestParts h)

end Sys2Proof.Wire

namespace Sys2Proof.Machine

open Sys2Proof.Wire (requestParts)

/-- A request that is next is served: its block acts on the state past the frame, and the reply of its kind is queued
(R137, R138). -/
theorem event_serveRequest {i : Instr} {act : State → Served} {s : State} {kind : Byte} {body : List Byte}
    (hnext : s.requestNext (.request i)) (hparts : requestParts i = some (kind, body)) :
    event (State.serveRequest i act) s = .next (State.replyWith s.taken kind (act s.taken)).settle :=
  serveRequest_of_next hnext hparts (Sys2Proof.Wire.verdict_requestFrame hparts)

end Sys2Proof.Machine
end

section
/-! PROOFS. CONTRACT-STAGE (O52): what a request's fields give, and what the block gives in each case of R5. -/

namespace Sys2Proof.Machine

/-! ## Codes and numbers of a port or class -/

/-- A byte above 15 names no port or class (R171). -/
theorem index16_eq_none {b : Byte} (h : 16 ≤ b.toNat) : index16 b = none := by
  simp [index16, Nat.not_lt.mpr h]

/-- A byte that holds a port or class number names it. -/
theorem index16_eq_some {b : Byte} {p : Fin 16} (h : b.toNat = p.val) : index16 b = some p := by
  simp [index16, h]

/-- The two defined codes of a flag (Table 11.4). -/
theorem flagOf_of_lt {b : Byte} (h : b.toNat < 2) : flagOf b = some (decide (b = 1)) := by
  have codes : b = 0 ∨ b = 1 := by bv_omega
  rcases codes with rfl | rfl <;> rfl

theorem flagOf_of_ge {b : Byte} (h : 2 ≤ b.toNat) : flagOf b = none := by
  have h0 : b ≠ 0 := by bv_omega
  have h1 : b ≠ 1 := by bv_omega
  rw [flagOf, if_neg h0, if_neg h1]

/-- The three defined codes of a lane (Table 11.4). -/
theorem laneOf_of_lt {b : Byte} (h : b.toNat < 3) :
    laneOf b = some (if b = 0 then .prime else if b = 1 then .main else .backfill) := by
  have codes : b = 0 ∨ b = 1 ∨ b = 2 := by bv_omega
  rcases codes with rfl | rfl | rfl <;> rfl

theorem laneOf_of_ge {b : Byte} (h : 3 ≤ b.toNat) : laneOf b = none := by
  have h0 : b ≠ 0 := by bv_omega
  have h1 : b ≠ 1 := by bv_omega
  have h2 : b ≠ 2 := by bv_omega
  rw [laneOf, if_neg h0, if_neg h1, if_neg h2]

/-! ## Locks -/

/-- What breaks a locked cell (R8, R11 check 3). -/
theorem LockCell.brokenBy_iff (l : LockCell) (c : Contract) :
    l.brokenBy c = true ↔
      l.locked = true ∧ (c.valid = false ∨ c.isProtected = false ∨ c.floorShare < l.floor) := by
  simp [LockCell.brokenBy, or_assoc]

/-! ## The contract of a CONTRACT-STAGE request -/

/-- The contract that a request with defined codes gives, its numbers clamped into the ranges of Table 1.1 (R6). -/
def clampedContract (b : ContractBody) : Contract :=
  { valid := b.valid = 1, lane := if b.lane = 0 then .prime else if b.lane = 1 then .main else .backfill,
    floorShare := min b.floorShare.toNat 1024, ceilingShare := max 1 (min b.ceilingShare.toNat 1024),
    floorBurst := b.floorBurst.toNat, ceilingBurst := max 1 b.ceilingBurst.toNat,
    isProtected := b.isProtected = 1, queueLimit := max 1 (min b.queueLimit.toNat 255),
    runHold := b.runHold.toNat }

/-- The request has no undefined code (R5 step 4). -/
def stageCodesDefined (b : ContractBody) : Prop := b.valid.toNat < 2 ∧ b.lane.toNat < 3 ∧ b.isProtected.toNat < 2

/-- The request passes step 4 of R5. -/
def stageConsistent (b : ContractBody) : Prop :=
  stageCodesDefined b ∧ (clampedContract b).floorShare ≤ (clampedContract b).ceilingShare
    ∧ (clampedContract b).floorBurst ≤ (clampedContract b).ceilingBurst

/-- The numbers of the clamped contract; a 16-bit field can leave its range only at the bounds shown (R6). -/
theorem clamped_givenNumbers (b : ContractBody) :
    (givenNumbers b).clamped =
      { floorShare := (clampedContract b).floorShare, ceilingShare := (clampedContract b).ceilingShare,
        floorBurst := (clampedContract b).floorBurst, ceilingBurst := (clampedContract b).ceilingBurst,
        queueLimit := (clampedContract b).queueLimit, runHold := (clampedContract b).runHold } := by
  have hfb := b.floorBurst.isLt
  have hcb := b.ceilingBurst.isLt
  have hrh := b.runHold.isLt
  simp only [StagedNumbers.clamped, givenNumbers, clamp, clampedContract, StagedNumbers.mk.injEq, true_and]
  omega

/-- A consistent request gives the clamped contract (R5 step 4, R7). -/
theorem consistentContract_eq_some {b : ContractBody} (h : stageConsistent b) :
    consistentContract b = some (clampedContract b) := by
  obtain ⟨⟨hvalid, hlane, hprot⟩, hshares, hbursts⟩ := h
  simp only [consistentContract, clamped_givenNumbers, flagOf_of_lt hvalid, laneOf_of_lt hlane, flagOf_of_lt hprot,
    hshares, hbursts, and_self, if_true]
  rfl

/-- An inconsistent request gives no contract: an undefined code, or a floor above its ceiling (R5 step 4). -/
theorem consistentContract_eq_none {b : ContractBody} (h : ¬ stageConsistent b) : consistentContract b = none := by
  by_cases hcodes : stageCodesDefined b
  · obtain ⟨hvalid, hlane, hprot⟩ := id hcodes
    simp only [consistentContract, clamped_givenNumbers, flagOf_of_lt hvalid, laneOf_of_lt hlane, flagOf_of_lt hprot]
    exact if_neg fun hordered => h ⟨hcodes, hordered⟩
  · have hsome : b.valid.toNat < 2 → b.lane.toNat < 3 → 2 ≤ b.isProtected.toNat := fun hv hl =>
      Nat.le_of_not_lt fun hp => hcodes ⟨hv, hl, hp⟩
    unfold consistentContract
    rcases Nat.lt_or_ge b.valid.toNat 2 with hv | hv
    · rcases Nat.lt_or_ge b.lane.toNat 3 with hl | hl
      · simp [flagOf_of_lt hv, laneOf_of_lt hl, flagOf_of_ge (hsome hv hl)]
      · simp [flagOf_of_lt hv, laneOf_of_ge hl]
    · simp [flagOf_of_ge hv]

/-- Every numeric field of the request is in its range (Table 1.1); reducible, so that it is decidable. -/
@[reducible] def stageInRange (b : ContractBody) : Prop :=
  b.floorShare.toNat ≤ 1024 ∧ 1 ≤ b.ceilingShare.toNat ∧ b.ceilingShare.toNat ≤ 1024 ∧ 1 ≤ b.ceilingBurst.toNat
    ∧ 1 ≤ b.queueLimit.toNat ∧ b.queueLimit.toNat ≤ 255

/-- A field is clamped exactly where one is outside its range (R6). -/
theorem wasClamped_iff (b : ContractBody) : wasClamped b = true ↔ ¬ stageInRange b := by
  have hiff : (givenNumbers b).clamped = givenNumbers b ↔ stageInRange b := by
    rw [clamped_givenNumbers]
    simp only [givenNumbers, clampedContract, stageInRange, StagedNumbers.mk.injEq, true_and, and_true]
    omega
  simp [wasClamped, hiff]

/-! ## What CONTRACT-STAGE gives in each case of R5 -/

section
variable {pb cb : Byte} {b : ContractBody} {s : State} {p : PortNo} {c : ClassNo}

theorem serveContractStage_notAllowed (h : 16 ≤ pb.toNat ∨ 16 ≤ cb.toNat) :
    serveContractStage pb cb b s = { st := s, result := .notAllowed, body := zeros 17 } := by
  unfold serveContractStage
  rcases h with hp | hc
  · simp [index16_eq_none hp]
  · simp [index16_eq_none hc]

theorem serveContractStage_busy (hp : pb.toNat = p.val) (hc : cb.toNat = c.val)
    (hpending : (s.port p).commitStatus = .pending) :
    serveContractStage pb cb b s = stageReply pb cb p c .busy s := by
  simp [serveContractStage, index16_eq_some hp, index16_eq_some hc, hpending]

theorem serveContractStage_inconsistent (hp : pb.toNat = p.val) (hc : cb.toNat = c.val)
    (hfree : (s.port p).commitStatus ≠ .pending) (hbad : ¬ stageConsistent b) :
    serveContractStage pb cb b s = stageReply pb cb p c .inconsistent s := by
  simp [serveContractStage, index16_eq_some hp, index16_eq_some hc, hfree, consistentContract_eq_none hbad]

theorem serveContractStage_locked (hp : pb.toNat = p.val) (hc : cb.toNat = c.val)
    (hfree : (s.port p).commitStatus ≠ .pending) (hgood : stageConsistent b)
    (hbroken : ((s.port p).lockCell c).brokenBy (clampedContract b) = true) :
    serveContractStage pb cb b s = stageReply pb cb p c .locked s := by
  simp [serveContractStage, index16_eq_some hp, index16_eq_some hc, hfree, consistentContract_eq_some hgood, hbroken]

/-- The row is written whole, and the reply carries it as written (R5 step 6, R9). -/
theorem serveContractStage_written (hp : pb.toNat = p.val) (hc : cb.toNat = c.val)
    (hfree : (s.port p).commitStatus ≠ .pending) (hgood : stageConsistent b)
    (hkept : ¬ ((s.port p).lockCell c).brokenBy (clampedContract b) = true) :
    serveContractStage pb cb b s =
      { st := s.setPort p ((s.port p).setStaged c (clampedContract b)),
        result := if wasClamped b then .clamped else .ok, body := pb :: cb :: (clampedContract b).bytes } := by
  simp [serveContractStage, index16_eq_some hp, index16_eq_some hc, hfree, consistentContract_eq_some hgood, hkept,
    stageReply, State.mapPort, Port.stagedRow_setStaged]

end

/-- A CONTRACT-STAGE that is next to be served is answered with what `serveContractStage` gives. -/
theorem exec_contractStage {pb cb : Byte} {b : ContractBody} {s : State}
    (h : s.requestNext (.request (.contractStage pb cb b))) :
    exec (.contractStage pb cb b) s
      = .next (State.replyWith s.taken 0x30 (serveContractStage pb cb b s.taken)).settle :=
  event_serveRequest h rfl

/-- Settles O52: each case of R5 is one lemma about `serveContractStage`. -/
theorem contractStageWritesTheRow : Obligations.ContractStageWritesTheRow := by
  intro pb cb b s h replies
  unfold replies
  rw [exec_contractStage h]
  refine ⟨fun hrange => ?_, fun p c hp hc => ⟨fun hpending => ?_, fun hfree => ⟨fun hbad => ?_, fun hgood hbreaks => ?_,
    fun hgood hkeeps => ?_⟩⟩⟩
  · rw [serveContractStage_notAllowed hrange]; rfl
  · rw [serveContractStage_busy (s := s.taken) hp hc hpending]; rfl
  · rw [serveContractStage_inconsistent (s := s.taken) hp hc hfree hbad]; rfl
  · rw [serveContractStage_locked (s := s.taken) hp hc hfree hgood ((LockCell.brokenBy_iff _ _).mpr hbreaks)]; rfl
  · have hresult : (if wasClamped b then ReplyResult.clamped else .ok) =
        if stageInRange b then .ok else .clamped := by
      by_cases hr : stageInRange b <;> simp [wasClamped_iff, hr]
    rw [serveContractStage_written (s := s.taken) hp hc hfree hgood (mt (LockCell.brokenBy_iff _ _).mp hkeeps), hresult]
    rfl

end Sys2Proof.Machine
end

section
/-! PROOFS. COMMIT (O54): the checks of R11 on one port, their first failure over the named ports, and the ports that an
accepted COMMIT makes PENDING. -/

namespace Sys2Proof.Machine

/-! ## The ascending order -/

theorem mem_ascending (p : Fin 16) : p ∈ ascending := by
  revert p; decide

/-- Before a number stand only lower ones. -/
theorem ascending_split (p : Fin 16) : ∃ before behind, ascending = before ++ p :: behind ∧ ∀ q ∈ before, q < p := by
  have split : ∀ p : Fin 16, ascending = ascending.take p.val ++ p :: ascending.drop (p.val + 1)
      ∧ ∀ q ∈ ascending.take p.val, q < p := by decide
  exact ⟨_, _, split p⟩

/-- The search in ascending order finds the least that is sought. -/
theorem find?_ascending {f : Fin 16 → Bool} {c : Fin 16} (hc : f c = true) (hbelow : ∀ d < c, ¬ f d = true) :
    ascending.find? f = some c := by
  obtain ⟨before, behind, heq, hlt⟩ := ascending_split c
  exact List.find?_eq_some_iff_append.mpr ⟨hc, before, behind, heq, fun d hd => by simp [hbelow d (hlt d hd)]⟩

/-! ## The checks of R11 -/

/-- The staged row of the class breaks its locked cell (R11 check 3). -/
def Port.breaksLock (P : Port) (c : ClassNo) : Prop := (P.lockCell c).brokenBy (P.stagedRow c) = true

/-- Some check of R11 fails on the port. -/
def Port.refusesCommit (P : Port) : Prop :=
  P.commitStatus = .pending ∨ 1024 < P.stagedFloorSum ∨ ∃ c, P.breaksLock c

section
variable {m : PortSet} {s : State} {p : PortNo}

theorem commitRefusal_of_pending (h : (s.port p).commitStatus = .pending) :
    s.commitRefusal p = some (.busy, p, none) := by
  simp [State.commitRefusal, h]

theorem commitRefusal_of_overcommit (hfree : (s.port p).commitStatus ≠ .pending)
    (h : 1024 < (s.port p).stagedFloorSum) : s.commitRefusal p = some (.overcommit, p, none) := by
  simp [State.commitRefusal, hfree, h]

/-- The reply names the lowest class whose lock is broken. -/
theorem commitRefusal_of_breaksLock {c : ClassNo} (hfree : (s.port p).commitStatus ≠ .pending)
    (hsum : ¬ 1024 < (s.port p).stagedFloorSum) (hc : (s.port p).breaksLock c)
    (hbelow : ∀ d < c, ¬ (s.port p).breaksLock d) : s.commitRefusal p = some (.locked, p, some c) := by
  have hfirst : (s.port p).lockBreaker = some c := find?_ascending hc hbelow
  simp [State.commitRefusal, hfree, hsum, hfirst]

theorem commitRefusal_eq_none (h : ¬ (s.port p).refusesCommit) : s.commitRefusal p = none := by
  simp only [Port.refusesCommit, not_or, not_exists] at h
  obtain ⟨hfree, hsum, hlocks⟩ := h
  have hnone : (s.port p).lockBreaker = none := List.find?_eq_none.mpr fun c _ => hlocks c
  simp [State.commitRefusal, hfree, hsum, hnone]

/-- The failure of the first named port that fails is that of the request. -/
theorem commitFailure_of_first {x : ReplyResult × PortNo × Option ClassNo} (hp : names m p = true)
    (hbelow : ∀ q < p, names m q = true → ¬ (s.port q).refusesCommit) (hx : s.commitRefusal p = some x) :
    s.commitFailure m = some x := by
  obtain ⟨before, behind, heq, hlt⟩ := ascending_split p
  have hbefore : (before.filter (names m)).findSome? s.commitRefusal = none := by
    simp only [List.findSome?_eq_none_iff, List.mem_filter]
    exact fun q ⟨hq, hn⟩ => commitRefusal_eq_none (hbelow q (hlt q hq) hn)
  simp [State.commitFailure, heq, List.filter_append, List.findSome?_append, hbefore, hp, hx]

theorem commitFailure_eq_none (h : ∀ q, names m q = true → ¬ (s.port q).refusesCommit) :
    s.commitFailure m = none := by
  simp only [State.commitFailure, List.findSome?_eq_none_iff, List.mem_filter]
  exact fun q ⟨_, hn⟩ => commitRefusal_eq_none (h q hn)

end

/-! ## An accepted COMMIT -/

/-- The ports of the list become PENDING, one after another. -/
def State.markPending (s : State) (ps : List PortNo) : State :=
  ps.foldl (fun s p => s.mapPort p (fun P => { P with commitStatus := .pending })) s

theorem State.markPending_frame (s : State) (ps : List PortNo) :
    s.markPending ps = { s with ports := (s.markPending ps).ports } := by
  induction ps generalizing s with
  | nil => rfl
  | cons p ps ih => exact ih _

theorem State.port_markPending (s : State) (ps : List PortNo) (q : PortNo) :
    (s.markPending ps).port q =
      { s.port q with commitStatus := if q ∈ ps then .pending else (s.port q).commitStatus } := by
  induction ps generalizing s with
  | nil => simp [State.markPending]
  | cons p ps ih =>
    refine (ih _).trans ?_
    rw [State.port_mapPort]
    by_cases hq : q = p <;> simp [hq]

/-- A non-empty mask makes one commit group of the ports that it makes PENDING; an empty one changes nothing (R11, R12). -/
theorem State.acceptCommit_eq (s : State) (m : PortSet) :
    s.acceptCommit m = { s with
      ports := (s.markPending (ascending.filter (names m))).ports
      groups := if m = 0 then s.groups else s.groups ++ [m] } := by
  have hdef : s.acceptCommit m = if m = 0 then s else
      let u := s.markPending (ascending.filter (names m))
      { u with groups := u.groups ++ [m] } := rfl
  by_cases hm : m = 0
  · have hnone : ascending.filter (names m) = [] := by simp [hm, names]
    rw [hdef, hnone, if_pos hm, if_pos hm]; rfl
  · rw [hdef, if_neg hm, if_neg hm, State.markPending_frame]

theorem State.port_acceptCommit (s : State) (m : PortSet) (p : PortNo) :
    (s.acceptCommit m).port p =
      { s.port p with commitStatus := if names m p then .pending else (s.port p).commitStatus } := by
  have hports : (s.acceptCommit m).port p = (s.markPending (ascending.filter (names m))).port p :=
    State.port_congr (by rw [State.acceptCommit_eq]) p
  rw [hports, State.port_markPending]
  simp [mem_ascending]

/-! ## The statement -/

/-- A COMMIT that is next to be served is answered with what `serveCommit` gives. -/
theorem exec_commit {m : PortSet} {s : State} (h : s.requestNext (.request (.commit m))) :
    exec (.commit m) s = .next (State.replyWith s.taken 0x32 (serveCommit m s.taken)).settle :=
  event_serveRequest h rfl

/-- The reply of a refused COMMIT names the port and, where a lock is broken, the class (R11, R171). -/
theorem exec_commit_refused {m : PortSet} {s : State} {r : ReplyResult} {p : PortNo} {c : Option ClassNo}
    (h : s.requestNext (.request (.commit m))) (hfails : s.commitFailure m = some (r, p, c)) :
    exec (.commit m) s = .next (s.taken.queueReply 0x32 r
      [byte1 p.val, (c.map (fun x => byte1 x.val)).getD 0xFF] .nothing).settle := by
  have hserve : serveCommit m s.taken
      = { st := s.taken, result := r, body := [byte1 p.val, (c.map (fun x => byte1 x.val)).getD 0xFF] } := by
    have : s.taken.commitFailure m = some (r, p, c) := hfails
    simp [serveCommit, this]
  rw [exec_commit h, hserve]; rfl

theorem exec_commit_accepted {m : PortSet} {s : State} (h : s.requestNext (.request (.commit m)))
    (hnone : s.commitFailure m = none) :
    exec (.commit m) s = .next ((s.taken.acceptCommit m).queueReply 0x32 .ok [0xFF, 0xFF] .nothing).settle := by
  have hserve : serveCommit m s.taken = { st := s.taken.acceptCommit m, result := .ok, body := [0xFF, 0xFF] } := by
    have : s.taken.commitFailure m = none := hnone
    simp [serveCommit, this]
  rw [exec_commit h, hserve]; rfl

/-- Settles O54: the failure found is that of the first named port that fails, and an accepted COMMIT marks the named
ports. -/
theorem commitIsAcceptedForAllOrRefused : Obligations.CommitIsAcceptedForAllOrRefused := by
  intro m s h replies named busy overcommitted breaks fails
  have hbreaks : ∀ p c, breaks p c ↔ (s.port p).breaksLock c := fun p c => (LockCell.brokenBy_iff _ _).symm
  have hfails : ∀ p, fails p ↔ (s.port p).refusesCommit := fun p => by
    simp only [fails, hbreaks]; rfl
  simp only [hfails]
  refine ⟨fun p hp hbelow => ⟨fun hbusy => ?_, fun hfree hover => ?_, fun hfree hsum c hc hfirst => ?_⟩, fun hnone => ?_⟩
  · exact exec_commit_refused (c := none) h (commitFailure_of_first hp hbelow (commitRefusal_of_pending hbusy))
  · exact exec_commit_refused (c := none) h
      (commitFailure_of_first hp hbelow (commitRefusal_of_overcommit hfree hover))
  · simp only [hbreaks] at hc hfirst
    exact exec_commit_refused (c := some c) h
      (commitFailure_of_first hp hbelow (commitRefusal_of_breaksLock hfree hsum hc hfirst))
  · refine ⟨s.taken.acceptCommit m, exec_commit_accepted h (commitFailure_eq_none hnone), ?_, fun p => ?_⟩
    · simp [State.acceptCommit_eq]
    · exact State.port_acceptCommit s.taken m p

end Sys2Proof.Machine
end

section
/-! PROOFS. The effective shares of a port (O22): R29 and R30 both fit a list of shares into a bound, by one rule. -/

namespace Sys2Proof.Machine

/-! ## Shares fitted into a bound -/

/-- The share x of a list with the sum S, fitted into a bound n: x itself where S fits, else scaled down (R29, R30). -/
def fitted (n S x : Nat) : Nat := if S ≤ n then x else x * n / S

theorem fitted_of_le {n S : Nat} (h : S ≤ n) (x : Nat) : fitted n S x = x := if_pos h

theorem fitted_of_lt {n S : Nat} (h : n < S) (x : Nat) : fitted n S x = x * n / S := if_neg (Nat.not_le.mpr h)

theorem fitted_le_self (n S x : Nat) : fitted n S x ≤ x := by
  by_cases h : S ≤ n
  · rw [fitted_of_le h]
  · have hlt : n < S := Nat.lt_of_not_le h
    rw [fitted_of_lt hlt]
    exact Nat.div_le_of_le_mul (Nat.mul_comm S x ▸ Nat.mul_le_mul_left x hlt.le)

theorem fitted_zero_bound {S x : Nat} (h : x ≤ S) : fitted 0 S x = 0 := by
  by_cases hS : S ≤ 0
  · rw [fitted_of_le hS]; omega
  · rw [fitted_of_lt (Nat.lt_of_not_le hS)]; simp

section
variable {α : Type} (n : Nat) (f : α → Nat) (xs : List α)

/-- Floors of parts sum to at most the floor of the whole. -/
theorem sum_mul_div_le (S : Nat) : (xs.map (fun a => f a * n / S)).sum ≤ (xs.map f).sum * n / S := by
  induction xs with
  | nil => simp
  | cons x xs ih =>
    calc f x * n / S + (xs.map (fun a => f a * n / S)).sum
        ≤ f x * n / S + (xs.map f).sum * n / S := Nat.add_le_add_left ih _
      _ ≤ (f x * n + (xs.map f).sum * n) / S := Nat.div_add_div_le_add_div
      _ = ((x :: xs).map f).sum * n / S := by rw [List.map_cons, List.sum_cons, Nat.add_mul]

/-- Fitted shares fit: they sum to at most the bound. -/
theorem sum_fitted_le : (xs.map (fun a => fitted n (xs.map f).sum (f a))).sum ≤ n := by
  by_cases h : (xs.map f).sum ≤ n
  · simpa only [fitted_of_le h] using h
  · have hlt : n < (xs.map f).sum := Nat.lt_of_not_le h
    simp only [fitted_of_lt hlt]
    exact (sum_mul_div_le n f xs _).trans (Nat.mul_div_cancel_left n (Nat.zero_lt_of_lt hlt)).le

end

/-! ## Sums over the rows of a port -/

theorem sum_map_valid (f : Contract → Nat) (cs : List Contract) :
    ((cs.filter Contract.valid).map f).sum
      = ((cs.filter Contract.validProtected).map f).sum + ((cs.filter Contract.validUnprotected).map f).sum := by
  induction cs with
  | nil => rfl
  | cons c cs ih =>
    cases hv : c.valid with
    | false => simpa [Contract.validProtected, Contract.validUnprotected, hv] using ih
    | true =>
      cases hp : c.isProtected <;>
        simp [Contract.validProtected, Contract.validUnprotected, hv, hp] at ih ⊢ <;> omega

theorem sum_map_eq_sum_map_valid {f : Contract → Nat} (hf : ∀ c, c.valid = false → f c = 0) (cs : List Contract) :
    (cs.map f).sum = ((cs.filter Contract.valid).map f).sum := by
  induction cs with
  | nil => rfl
  | cons c cs ih => cases hv : c.valid <;> simp [hv, hf, ih]

/-! ## The effective shares of one row -/

section
variable {k : Nat} {cs : List Contract} {c : Contract}

theorem protectedShare_eq_fitted :
    protectedShare k cs c = fitted 1024 (protectedDemand k cs) (demand k c) := rfl

theorem unprotectedShare_eq_fitted :
    unprotectedShare k cs c = fitted (leftForUnprotected k cs) (unprotectedSum cs) c.floorShare := rfl

theorem effectiveShares_of_invalid (h : c.valid = false) : effectiveShares k cs c = (0, 0) := by
  simp [effectiveShares, h]

theorem effectiveShares_of_protected (h : c.validProtected = true) :
    effectiveShares k cs c = (protectedShare k cs c, max c.ceilingShare (protectedShare k cs c)) := by
  simp only [Contract.validProtected, Bool.and_eq_true] at h
  simp [effectiveShares, h]

theorem effectiveShares_of_unprotected (h : c.validUnprotected = true) :
    effectiveShares k cs c = (unprotectedShare k cs c, c.ceilingShare) := by
  simp only [Contract.validUnprotected, Bool.and_eq_true, Bool.not_eq_true'] at h
  simp [effectiveShares, h]

theorem protected_or_unprotected (h : c.valid = true) : c.validProtected = true ∨ c.validUnprotected = true := by
  cases hp : c.isProtected <;> simp [Contract.validProtected, Contract.validUnprotected, h, hp]

theorem protectedShare_le : protectedShare k cs c ≤ 1024 :=
  (fitted_le_self _ _ _).trans (Nat.min_le_left _ _)

theorem unprotectedShare_le : unprotectedShare k cs c ≤ c.floorShare := fitted_le_self _ _ _

theorem floorShare_le_unprotectedSum (hmem : c ∈ cs) (h : c.validUnprotected = true) :
    c.floorShare ≤ unprotectedSum cs :=
  List.le_sum_of_mem (List.mem_map_of_mem (List.mem_filter.mpr ⟨hmem, h⟩))

end

/-! ## The shares of a port -/

section
variable (k : Nat) (cs : List Contract)

theorem sum_protectedShare_le : ((cs.filter Contract.validProtected).map (protectedShare k cs)).sum ≤ 1024 :=
  sum_fitted_le 1024 (demand k) (cs.filter Contract.validProtected)

theorem sum_unprotectedShare_le :
    ((cs.filter Contract.validUnprotected).map (unprotectedShare k cs)).sum ≤ leftForUnprotected k cs :=
  sum_fitted_le (leftForUnprotected k cs) Contract.floorShare (cs.filter Contract.validUnprotected)

theorem map_effectiveShares_protected :
    (cs.filter Contract.validProtected).map (fun c => (effectiveShares k cs c).1)
      = (cs.filter Contract.validProtected).map (protectedShare k cs) :=
  List.map_congr_left fun _ hc => by rw [effectiveShares_of_protected (List.mem_filter.mp hc).2]

theorem map_effectiveShares_unprotected :
    (cs.filter Contract.validUnprotected).map (fun c => (effectiveShares k cs c).1)
      = (cs.filter Contract.validUnprotected).map (unprotectedShare k cs) :=
  List.map_congr_left fun _ hc => by rw [effectiveShares_of_unprotected (List.mem_filter.mp hc).2]

/-- The unprotected rows share what the protected rows leave of 1024. -/
theorem sum_effectiveShares_le : (cs.map (fun c => (effectiveShares k cs c).1)).sum ≤ 1024 := by
  have hinvalid : ∀ c, c.valid = false → (effectiveShares k cs c).1 = 0 := fun c h => by
    rw [effectiveShares_of_invalid h]
  rw [sum_map_eq_sum_map_valid hinvalid, sum_map_valid, map_effectiveShares_protected,
    map_effectiveShares_unprotected]
  have hprot := sum_protectedShare_le k cs
  have hunprot := sum_unprotectedShare_le k cs
  simp only [leftForUnprotected] at hunprot
  omega

theorem floor_le_ceiling_of_effectiveShares {c : Contract} (hv : c.valid = true)
    (hrange : c.floorShare ≤ c.ceilingShare ∧ c.ceilingShare ≤ 1024) :
    (effectiveShares k cs c).1 ≤ (effectiveShares k cs c).2 ∧ (effectiveShares k cs c).2 ≤ 1024 := by
  obtain ⟨hfloor, hceiling⟩ := hrange
  rcases protected_or_unprotected hv with h | h
  · rw [effectiveShares_of_protected h]
    exact ⟨Nat.le_max_right _ _, Nat.max_le.mpr ⟨hceiling, protectedShare_le⟩⟩
  · rw [effectiveShares_of_unprotected h]
    exact ⟨unprotectedShare_le.trans hfloor, hceiling⟩

end

/-! ## FULL grade -/

section
variable {cs : List Contract}

theorem demand_one {c : Contract} (h : c.floorShare ≤ 1024) : demand 1 c = c.floorShare := by
  simp [demand, h]

theorem protectedDemand_one (h : ∀ c ∈ cs, c.floorShare ≤ 1024) :
    protectedDemand 1 cs = ((cs.filter Contract.validProtected).map Contract.floorShare).sum :=
  congrArg List.sum (List.map_congr_left fun c hc => demand_one (h c (List.mem_of_mem_filter hc)))

/-- The floor shares of the valid rows split into the demands at FULL grade and U. -/
theorem floorSum_eq (h : ∀ c ∈ cs, c.floorShare ≤ 1024) :
    floorSum cs = protectedDemand 1 cs + unprotectedSum cs := by
  rw [protectedDemand_one h]
  exact sum_map_valid Contract.floorShare cs

theorem protectedShare_one {c : Contract} (hc : c.floorShare ≤ 1024) (hS : protectedDemand 1 cs ≤ 1024) :
    protectedShare 1 cs c = c.floorShare := by
  rw [protectedShare_eq_fitted, fitted_of_le hS, demand_one hc]

theorem leftForUnprotected_one (hS : protectedDemand 1 cs ≤ 1024) :
    leftForUnprotected 1 cs = 1024 - protectedDemand 1 cs := by
  have hsame : protectedShare 1 cs = demand 1 := funext fun _ => fitted_of_le hS _
  rw [leftForUnprotected, hsame]; rfl

theorem effectiveShares_one {c : Contract} (hrange : ∀ c ∈ cs, c.floorShare ≤ 1024) (hsum : floorSum cs ≤ 1024)
    (hmem : c ∈ cs) (hv : c.valid = true) (hc : c.floorShare ≤ c.ceilingShare) :
    effectiveShares 1 cs c = (c.floorShare, c.ceilingShare) := by
  rw [floorSum_eq hrange] at hsum
  have hS : protectedDemand 1 cs ≤ 1024 := by omega
  rcases protected_or_unprotected hv with h | h
  · rw [effectiveShares_of_protected h, protectedShare_one (hrange c hmem) hS, Nat.max_eq_left hc]
  · have hU : unprotectedSum cs ≤ leftForUnprotected 1 cs := by rw [leftForUnprotected_one hS]; omega
    rw [effectiveShares_of_unprotected h, unprotectedShare_eq_fitted, fitted_of_le hU]

end

/-! ## The statement -/

/-- Settles O22: R29 and R30 are the cases of `effectiveShares`, and the sums are those of fitted shares. -/
theorem effectiveSharesFitThePort : Obligations.EffectiveSharesFitThePort := by
  intro g cs _ hrange k e ce d prot unprot S L U
  have hprot : ∀ c ∈ prot,
      effectiveShares k cs c = (protectedShare k cs c, max c.ceilingShare (protectedShare k cs c)) :=
    fun c hc => effectiveShares_of_protected (List.mem_filter.mp hc).2
  have hunprot : ∀ c ∈ unprot, effectiveShares k cs c = (unprotectedShare k cs c, c.ceilingShare) :=
    fun c hc => effectiveShares_of_unprotected (List.mem_filter.mp hc).2
  have hsum : prot.map e = prot.map (protectedShare k cs) := map_effectiveShares_protected k cs
  have hL : L = leftForUnprotected k cs := by simp only [L, hsum]; rfl
  have he : ∀ c ∈ unprot, e c = fitted L U c.floorShare := fun c hc => by
    rw [hL]; exact congrArg Prod.fst (hunprot c hc)
  have hself : ∀ c ∈ unprot, e c ≤ c.floorShare := fun c hc => he c hc ▸ fitted_le_self L U c.floorShare
  have hU : ∀ c ∈ unprot, c.floorShare ≤ U := fun c hc =>
    floorShare_le_unprotectedSum (List.mem_filter.mp hc).1 (List.mem_filter.mp hc).2
  refine ⟨fun c _ hv => ?invalid, fun c hc => congrArg Prod.fst (hprot c hc), ?protectedSum, he,
    fun c hc => ⟨hself c hc, fun hU0 => ?noDemand, fun hL0 => ?nothingLeft⟩,
    fun c hc => ?protectedCeiling, fun c hc => congrArg Prod.snd (hunprot c hc),
    fun c hc hv => floor_le_ceiling_of_effectiveShares k cs hv (hrange c hc), sum_effectiveShares_le k cs,
    fun hfull hfits c hc hv => ?full⟩
  case invalid => simp [e, ce, effectiveShares_of_invalid hv]
  case protectedSum => rw [hsum]; exact sum_protectedShare_le k cs
  case noDemand => exact Nat.le_zero.mp (hU0 ▸ (hself c hc).trans (hU c hc))
  case nothingLeft => rw [he c hc, hL0]; exact fitted_zero_bound (hU c hc)
  case protectedCeiling => simp only [e, ce, hprot c hc]
  case full =>
    have hk : k = 1 := by simp only [k, hfull]; rfl
    have hfloors : ∀ c ∈ cs, c.floorShare ≤ 1024 := fun c hc => (hrange c hc).1.trans (hrange c hc).2
    have hshares := effectiveShares_one hfloors hfits hc hv (hrange c hc).1
    simp only [e, ce, hk, hshares, and_self]

end Sys2Proof.Machine
end

section
/-! PROOFS. The frames of the switch and the pool (O20): a frame that is next is taken by its owner, PAUSE follows the
marks, and what POOL-SET stores. -/

namespace Sys2Proof.Wire

/-- The examination of a whole frame finds that frame (R120). -/
theorem examine_bytes (f : SwIn) : examine f.bytes = .good f f.bytes.length := by
  refine (examine_whole f.kind f.body [] _ f.body_length).trans ?_
  rw [if_neg (not_not_intro rfl), decodeSwBody_body, SwIn.bytes_length]

theorem SwKind.bodyLength_le (k : SwKind) : k.bodyLength ≤ 10 := by
  cases k <;> decide

end Sys2Proof.Wire

namespace Sys2Proof.Machine

open Sys2Proof.Wire (SwIn)

/-- A frame that is next is handed to its owner, past its own bytes (R119, R120). -/
theorem event_takeFrame {f : SwIn} {handle : State → State} {s : State} (h : s.frameNext f) :
    event (State.takeFrame f handle) s = .next (handle (s.pastFrame f)).settle := by
  have hlen : f.bytes.length ≤ 256 := by
    have := f.kind.bodyLength_le
    rw [SwIn.bytes_length]; omega
  exact takeFrame_of_next h (Sys2Proof.Wire.examine_bytes f) hlen

/-! ## PAUSE and the marks -/

/-- A re-evaluation asserts PAUSE: it was negated, and the free count is at or below the low mark (R55). -/
def Pool.assertsPause (u : Pool) : Prop := u.pause = false ∧ u.free ≤ u.lowMark

/-- PAUSE is asserted at the low mark, and stays asserted below the high mark (R55). -/
theorem Pool.pauseNext_iff (u : Pool) :
    u.pauseNext = true ↔ u.assertsPause ∨ (u.pause = true ∧ u.free < u.highMark) := by
  cases h : u.pause <;> simp [Pool.pauseNext, Pool.assertsPause, h]

theorem Pool.assertsPause_iff (u : Pool) : u.assertsPause ↔ (!u.pause && u.pauseNext) = true := by
  cases h : u.pause <;> simp [Pool.pauseNext, Pool.assertsPause, h]

@[simp] theorem State.evaluatePause_pool (s : State) :
    s.evaluatePause.pool = { s.pool with pause := s.pool.pauseNext } := by
  unfold State.evaluatePause; dsimp only; split <;> simp

/-- The assertion of PAUSE is a cause of the POOL notice (R55). -/
theorem State.evaluatePause_of_asserts {s : State} (h : s.pool.assertsPause) :
    s.evaluatePause = { s with pool := { s.pool with pause := s.pool.pauseNext } }.noticeCause .pool :=
  if_pos ((Pool.assertsPause_iff _).mp h)

theorem State.evaluatePause_of_not_asserts {s : State} (h : ¬ s.pool.assertsPause) :
    s.evaluatePause = { s with pool := { s.pool with pause := s.pool.pauseNext } } :=
  if_neg (mt (Pool.assertsPause_iff _).mpr h)

/-! ## POOL-SET -/

/-- The stored marks lie in their ranges, the high mark above the low mark (R56 steps 1 to 3). -/
theorem clampedMarks_eq (lo hi : Nat) :
    clampedMarks lo hi = (min lo 2047, max (min lo 2047 + 1) (min hi 2048)) := by
  refine Prod.ext rfl ?_
  by_cases h : clamp 1 2048 hi ≤ min lo 2047
  · refine (if_pos h).trans ?_
    simp only [clamp] at h; omega
  · refine (if_neg h).trans ?_
    simp only [clamp] at h ⊢; omega

/-- A POOL-SET that is next to be served is answered with what `servePoolSet` gives. -/
theorem exec_poolSet {lo hi : BitVec 16} {s : State} (h : s.requestNext (.request (.poolSet lo hi))) :
    exec (.poolSet lo hi) s = .next (State.replyWith s.taken 0x40 (servePoolSet lo hi s.taken)).settle :=
  event_serveRequest h rfl

/-- The marks are stored and PAUSE is re-evaluated; the reply carries the pool as it then stands (R56). -/
theorem servePoolSet_eq {lo hi : BitVec 16} {l h : Nat} (s : State) (hm : clampedMarks lo.toNat hi.toNat = (l, h)) :
    servePoolSet lo hi s =
      let u := { s with pool := { s.pool with lowMark := l, highMark := h } }.evaluatePause
      { st := u, result := if lo.toNat = l ∧ hi.toNat = h then .ok else .clamped,
        body := nat2 l ++ nat2 h ++ nat2 s.pool.free ++ [flag u.pool.pause] } := by
  simp [servePoolSet, hm, eq_comm]

/-- Settles O20: the return of a record and a POOL-SET end in one re-evaluation of PAUSE, at the marks then in force. -/
theorem pauseFollowsTheMarks : Obligations.PauseFollowsTheMarks := by
  refine ⟨fun s r => ?returned, fun lo hi s hnext => ?set⟩
  case returned =>
    let t := (s.setSource r.source
      { s.source r.source with outstanding := (s.source r.source).outstanding - 1 }).setFree (s.pool.free + 1)
    exact ⟨t.pool.pauseNext, t.pool.pauseNext_iff, fun hlow => t.evaluatePause_of_asserts hlow,
      fun hkeep => t.evaluatePause_of_not_asserts hkeep⟩
  case set =>
    intro l h u
    refine ⟨?_, by omega, by omega, ?_⟩
    · rw [exec_poolSet hnext, servePoolSet_eq _ (clampedMarks_eq _ _)]; rfl
    · simp only [u, State.evaluatePause_pool]
      exact Pool.pauseNext_iff _

end Sys2Proof.Machine
end

section
/-! PROOFS. BID (O33): the checks of Table 3.4 one by one, and what a declined and an accepted bid leave. -/

namespace Sys2Proof.Machine

/-! ## The records of a port -/

theorem Port.mem_queued {P : Port} {b : BidRecord} : b ∈ P.queued ↔ ∃ c, b ∈ (P.row c).queue := by
  simp [Port.queued, mem_ascending]

theorem Port.mem_records {P : Port} {b : BidRecord} :
    b ∈ P.records ↔ (∃ c, b ∈ (P.row c).queue) ∨ ∃ a ∈ P.awards, a.bid = b := by
  simp [Port.records, Port.mem_queued]

/-- The tag set of a port is that of its queued and awarded records (R47). -/
theorem Port.tagInUse_iff (P : Port) (tag : Tag) : P.tagInUse tag = true ↔ ∃ a ∈ P.records, a.tag = tag := by
  have hrows : (∃ r ∈ P.active.toList, ∃ b ∈ r.queue, b.tag = tag)
      ↔ ∃ c, ∃ b ∈ (P.row c).queue, b.tag = tag := by
    simp only [Vector.mem_toList_iff, Vector.mem_iff_getElem]
    constructor
    · rintro ⟨_, ⟨i, hi, rfl⟩, hb⟩
      exact ⟨⟨i, hi⟩, hb⟩
    · rintro ⟨c, hb⟩
      exact ⟨P.row c, ⟨c.val, c.isLt, rfl⟩, hb⟩
  simp only [Port.tagInUse, Bool.or_eq_true, List.any_eq_true, beq_iff_eq, hrows, Port.mem_records]
  constructor
  · rintro (⟨c, b, hb, rfl⟩ | ⟨a, ha, rfl⟩)
    · exact ⟨b, .inl ⟨c, hb⟩, rfl⟩
    · exact ⟨a.bid, .inr ⟨a, ha, rfl⟩, rfl⟩
  · rintro ⟨b, ⟨c, hb⟩ | ⟨a, ha, rfl⟩, rfl⟩
    · exact .inl ⟨c, b, hb, rfl⟩
    · exact .inr ⟨a, ha, rfl⟩

/-! ## The checks of Table 3.4 -/

section
variable {s : State} {b : BidBody}

theorem checkBid_off (h : (s.port b.port).mode = .off) : s.checkBid b = .decline .portOff none := by
  simp [State.checkBid, h]

theorem checkBid_rehearsal (h : (s.port b.port).mode = .rehearsal) :
    s.checkBid b = .decline .portRehearsal none := by
  simp [State.checkBid, h]

theorem checkBid_open (h : (s.port b.port).mode = .live ∨ (s.port b.port).mode = .frozen) :
    s.checkBid b = s.checkFrom2 b := by
  rcases h with h | h <;> simp [State.checkBid, h]

theorem checkFrom2_stranded (h : (s.port b.port).stranded = true) :
    s.checkFrom2 b = .decline .portDown none := by
  simp [State.checkFrom2, h]

theorem checkFrom2_unknown (h : (s.port b.port).stranded = false) (hnone : s.lookup b.address = none) :
    s.checkFrom2 b = .decline .unknownSource none := by
  simp [State.checkFrom2, h, hnone]

theorem checkFrom2_found {e : EntryNo} (h : (s.port b.port).stranded = false) (hfound : s.lookup b.address = some e) :
    s.checkFrom2 b = s.checkWithEntry b e := by
  simp [State.checkFrom2, h, hfound]

variable {e : EntryNo}

theorem checkWithEntry_muted (h : (s.source e).admission = .muted) :
    s.checkWithEntry b e = .decline .sourceMuted (some e) := by
  simp [State.checkWithEntry, h]

theorem checkWithEntry_noAllotment (hadm : (s.source e).admission = .admitted)
    (h : ((s.port b.port).row (s.source e).cls).contract.valid = false) :
    s.checkWithEntry b e = .decline .noAllotment (some e) := by
  simp [State.checkWithEntry, hadm, h]

theorem checkWithEntry_duplicateTag (hadm : (s.source e).admission = .admitted)
    (hvalid : ((s.port b.port).row (s.source e).cls).contract.valid = true)
    (h : ∃ a ∈ (s.port b.port).records, a.tag = b.tag) :
    s.checkWithEntry b e = .decline .duplicateTag (some e) := by
  simp [State.checkWithEntry, hadm, hvalid, (Port.tagInUse_iff _ _).mpr h]

/-- Checks 7 to 9, once the source is admitted, its row is valid and the tag is new. -/
theorem checkWithEntry_of_newTag (hadm : (s.source e).admission = .admitted)
    (hvalid : ((s.port b.port).row (s.source e).cls).contract.valid = true)
    (hnew : ¬ ∃ a ∈ (s.port b.port).records, a.tag = b.tag) :
    s.checkWithEntry b e =
      if (s.source e).limit ≤ (s.source e).outstanding then .decline .sourceLimit (some e)
      else if ((s.port b.port).row (s.source e).cls).contract.queueLimit
          ≤ ((s.port b.port).row (s.source e).cls).queue.length then .decline .queueFull (some e)
      else if s.pool.free = 0 then .decline .poolFull (some e) else .accept e := by
  rw [← Port.tagInUse_iff] at hnew
  simp [State.checkWithEntry, hadm, hvalid, hnew]

end

/-! ## What a bid leaves -/

section
variable {b : BidBody} {s : State}

/-- A BID that is next is taken by the intake, past its bytes. -/
theorem exec_bid (h : s.frameNext (.bid b)) :
    exec (.bid b) s = .next (State.takeBid b (s.pastFrame (.bid b))).settle :=
  event_takeFrame h

theorem exec_bid_of_decline {cause : Cause} (e : Option EntryNo) (h : s.frameNext (.bid b))
    (hcheck : s.checkBid b = .decline cause e) :
    exec (.bid b) s = .next (((s.pastFrame (.bid b)).declineBid b cause e).pushSwitch
      (.decline b.port b.tag cause)).settle := by
  have hcheck : (s.pastFrame (.bid b)).checkBid b = .decline cause e := hcheck
  rw [exec_bid h]
  simp only [State.takeBid, hcheck]

/-- A declined bid is an ARRIVALS and a DECLINES event of the class that the lookup found (R52). -/
theorem exec_bid_declined {cause : Cause} (e : Option EntryNo) (h : s.frameNext (.bid b))
    (hcheck : s.checkBid b = .decline cause e) (hfault : s.declineFault b cause e = none) :
    exec (.bid b) s = .next ((((s.pastFrame (.bid b)).count b.port .arrivals (s.bidClass e) 1).count b.port .declines
      (s.bidClass e) 1).pushSwitch (.decline b.port b.tag cause)).settle := by
  have hfault : (s.pastFrame (.bid b)).declineFault b cause e = none := hfault
  rw [exec_bid_of_decline e h hcheck]
  simp only [State.declineBid, hfault]
  rfl

/-- The fault that Table 3.4 names is reported before the events are counted (R52). -/
theorem exec_bid_faulted {cause : Cause} (e : Option EntryNo) {f : FaultReport} (h : s.frameNext (.bid b))
    (hcheck : s.checkBid b = .decline cause e) (hfault : s.declineFault b cause e = some f) :
    exec (.bid b) s = .next (((((s.pastFrame (.bid b)).reportFault f).count b.port .arrivals (s.bidClass e) 1).count
      b.port .declines (s.bidClass e) 1).pushSwitch (.decline b.port b.tag cause)).settle := by
  have hfault : (s.pastFrame (.bid b)).declineFault b cause e = some f := hfault
  rw [exec_bid_of_decline e h hcheck]
  simp only [State.declineBid, hfault]
  rfl

theorem exec_bid_accepted {e : EntryNo} (h : s.frameNext (.bid b)) (hcheck : s.checkBid b = .accept e) :
    exec (.bid b) s = .next (((s.pastFrame (.bid b)).acceptBid b e).ladder b.port).settle := by
  have hcheck : (s.pastFrame (.bid b)).checkBid b = .accept e := hcheck
  rw [exec_bid h]
  simp only [State.takeBid, hcheck]

end

/-- Two updates of one port are one. -/
theorem State.mapPort_mapPort (s : State) (p : PortNo) (f g : Port → Port) :
    (s.mapPort p f).mapPort p g = s.mapPort p (fun P => g (f P)) := by
  simp [State.mapPort, State.setPort, State.port]

/-- An accepted bid joins the tail of its row queue, and then the ARRIVALS event is counted (R52, R53). -/
theorem acceptBid_eq (s : State) (b : BidBody) (e : EntryNo) :
    let x := s.source e
    s.acceptBid b e =
      ({ ((s.mapPort b.port (fun P =>
            P.mapRow x.cls (fun r => { r with queue := r.queue ++ [s.bidRecord b e] }))).count
              b.port .arrivals (some x.cls) 1).setSource e { x with outstanding := x.outstanding + 1 } with
          pool := { s.pool with free := s.pool.free - 1 } } : State).evaluatePause := by
  intro x
  rw [State.count, State.mapPort_mapPort]
  rfl

/-- Settles O33: the checks of Table 3.4 in their order, each with what its failure leaves. -/
theorem bidIsAcceptedOrDeclined : Obligations.BidIsAcceptedOrDeclined := by
  intro b s h s0 P counted declines faults
  refine ⟨fun hoff => exec_bid_declined none h (checkBid_off hoff) rfl,
    fun hreh => exec_bid_declined none h (checkBid_rehearsal hreh) rfl, fun hopen => ?_⟩
  have hopen : s.checkBid b = s.checkFrom2 b := checkBid_open hopen
  refine ⟨fun hdown => exec_bid_declined none h (hopen.trans (checkFrom2_stranded hdown)) rfl,
    fun hup hnone => exec_bid_faulted none h (hopen.trans (checkFrom2_unknown hup hnone)) rfl, fun hup e hfound => ?_⟩
  have hentry : s.checkBid b = s.checkWithEntry b e := hopen.trans (checkFrom2_found hup hfound)
  intro x r used
  refine ⟨fun hmuted => exec_bid_declined (some e) h (hentry.trans (checkWithEntry_muted hmuted)) rfl,
    fun hadm hinvalid => exec_bid_declined (some e) h (hentry.trans (checkWithEntry_noAllotment hadm hinvalid)) rfl,
    fun hadm hvalid => ⟨fun hused =>
      exec_bid_faulted (some e) h (hentry.trans (checkWithEntry_duplicateTag hadm hvalid hused)) rfl,
      fun hnew hlimit => ?limit, fun hnew hbelow => ⟨fun hfull => ?queue, fun hroom => ⟨fun hzero => ?pool,
        fun hfree => ?accept⟩⟩⟩⟩
  all_goals have hlast := hentry.trans (checkWithEntry_of_newTag hadm hvalid hnew)
  case limit => exact exec_bid_declined (some e) h (hlast.trans (if_pos hlimit)) rfl
  all_goals have hlast := hlast.trans (if_neg (Nat.not_le.mpr hbelow))
  case queue => exact exec_bid_declined (some e) h (hlast.trans (if_pos hfull)) rfl
  all_goals have hlast := hlast.trans (if_neg (Nat.not_le.mpr hroom))
  case pool => exact exec_bid_faulted (some e) h (hlast.trans (if_pos hzero)) rfl
  case accept =>
    have hlast := hlast.trans (if_neg (Nat.ne_of_gt hfree))
    rw [exec_bid_accepted h hlast, acceptBid_eq]
    rfl

end Sys2Proof.Machine
end

section
/-! PROOFS. WITHDRAW (O34): where the tags of a port are unique, the record of a tag stands at one place, and the search
for the tag finds it there. -/

namespace Sys2Proof.Machine

/-! ## Searches for a tag among unique tags -/

section
variable {before after : List BidRecord} {b : BidRecord}

theorem tag_ne_of_nodup (h : ((before ++ b :: after).map (fun x => x.tag)).Nodup) :
    ∀ x ∈ before, x.tag ≠ b.tag := by
  simp only [List.map_append, List.map_cons, List.nodup_append] at h
  obtain ⟨_, _, hne⟩ := h
  exact fun x hx => hne _ (List.mem_map_of_mem hx) _ List.mem_cons_self

theorem find?_tag_of_nodup (h : ((before ++ b :: after).map (fun x => x.tag)).Nodup) :
    (before ++ b :: after).find? (fun x => x.tag == b.tag) = some b :=
  List.find?_eq_some_iff_append.mpr
    ⟨beq_self_eq_true _, before, after, rfl, fun x hx => by simp [tag_ne_of_nodup h x hx]⟩

theorem eraseP_tag_of_nodup (h : ((before ++ b :: after).map (fun x => x.tag)).Nodup) :
    (before ++ b :: after).eraseP (fun x => x.tag == b.tag) = before ++ after := by
  rw [List.eraseP_append_right _ fun x hx => by simp [tag_ne_of_nodup h x hx],
    List.eraseP_cons_of_pos (by simp)]

end

/-! ## The unique tags of a port -/

section
variable {P : Port} (huniq : (P.records.map (fun b => b.tag)).Nodup)
include huniq

theorem Port.tag_ne_of_queued_awarded {b : BidRecord} {a : AwardRecord} (hb : b ∈ P.queued) (ha : a ∈ P.awards) :
    b.tag ≠ a.bid.tag := by
  simp only [Port.records, List.map_append, List.nodup_append] at huniq
  obtain ⟨_, _, hne⟩ := huniq
  exact hne _ (List.mem_map_of_mem hb) _ (List.mem_map_of_mem (List.mem_map_of_mem ha))

/-- Tags are unique in each row queue, and no two row queues share one. -/
theorem Port.queue_tags_nodup :
    (∀ c ∈ ascending, ((P.row c).queue.map (fun b => b.tag)).Nodup)
      ∧ ascending.Pairwise (Function.onFun List.Disjoint fun c => (P.row c).queue.map (fun b => b.tag)) := by
  simp only [Port.records, List.map_append, List.nodup_append] at huniq
  obtain ⟨hqueued, _⟩ := huniq
  rwa [Port.queued, List.map_flatMap, List.nodup_flatMap] at hqueued

theorem Port.row_tags_nodup (c : ClassNo) : ((P.row c).queue.map (fun b => b.tag)).Nodup :=
  (Port.queue_tags_nodup huniq).1 c (mem_ascending c)

/-- A tag is queued in one class only. -/
theorem Port.class_unique {c d : ClassNo} {b x : BidRecord} (hb : b ∈ (P.row c).queue) (hx : x ∈ (P.row d).queue)
    (htag : x.tag = b.tag) : d = c := by
  obtain ⟨_, hdisjoint⟩ := Port.queue_tags_nodup huniq
  have hsymm : Std.Symm (Function.onFun List.Disjoint fun c => (P.row c).queue.map (fun b => b.tag)) :=
    ⟨fun _ _ h => List.Disjoint.symm h⟩
  by_contra hne
  exact hdisjoint.forall (mem_ascending d) (mem_ascending c) hne (List.mem_map_of_mem hx)
    (htag ▸ List.mem_map_of_mem hb)

theorem Port.queuedClass_of_mem {c : ClassNo} {b : BidRecord} (hb : b ∈ (P.row c).queue) :
    P.queuedClass b.tag = some c := by
  refine find?_ascending (List.any_eq_true.mpr ⟨b, hb, beq_self_eq_true _⟩) fun d hlt hany => ?_
  obtain ⟨x, hx, htag⟩ := List.any_eq_true.mp hany
  exact hlt.ne (Port.class_unique huniq hb hx (beq_iff_eq.mp htag))

end

theorem Port.queuedClass_eq_none {P : Port} {tag : Tag} (h : ∀ b ∈ P.queued, b.tag ≠ tag) :
    P.queuedClass tag = none := by
  simp only [Port.queuedClass, List.find?_eq_none, List.any_eq_true, beq_iff_eq, not_exists, not_and]
  exact fun c _ b hb => h b (Port.mem_queued.mpr ⟨c, hb⟩)

theorem Port.award?_eq_none {P : Port} {tag : Tag} (h : ∀ a ∈ P.awards, a.bid.tag ≠ tag) :
    P.award? tag = none := by
  simpa [Port.award?] using h

theorem Port.award?_of_mem {P : Port} {a : AwardRecord} (ha : a ∈ P.awards) : ∃ x, P.award? a.bid.tag = some x :=
  Option.isSome_iff_exists.mp (List.find?_isSome.mpr ⟨a, ha, beq_self_eq_true _⟩)

/-! ## The answer of a WITHDRAW -/

section
variable {p : PortNo} {tag : Tag} {s : State}

/-- A WITHDRAW that is next is taken by the intake, past its bytes. -/
theorem exec_withdraw (h : s.frameNext (.withdraw p tag)) :
    exec (.withdraw p tag) s = .next (State.takeWithdraw p tag (s.pastFrame (.withdraw p tag))).settle :=
  event_takeFrame h

theorem takeWithdraw_rehearsal (h : (s.port p).mode = .rehearsal) :
    s.takeWithdraw p tag = s.pushSwitch (.withdrawAnswer p tag .unknown) := by
  simp [State.takeWithdraw, h]

/-- A queued record leaves its place in its queue, and the others keep their order (R58). -/
theorem takeWithdraw_queued {c : ClassNo} {before after : List BidRecord} {b : BidRecord}
    (hmode : (s.port p).mode ≠ .rehearsal) (huniq : ((s.port p).records.map (fun b => b.tag)).Nodup)
    (hqueue : ((s.port p).row c).queue = before ++ b :: after) :
    s.takeWithdraw p b.tag =
      ((s.setPort p ((s.port p).setRow c { (s.port p).row c with queue := before ++ after })).returnRecord b).pushSwitch
        (.withdrawAnswer p b.tag .removed) := by
  have hclass : (s.port p).queuedClass b.tag = some c := Port.queuedClass_of_mem huniq (by simp [hqueue])
  have hnodup := Port.row_tags_nodup huniq c
  rw [hqueue] at hnodup
  simp [State.takeWithdraw, hmode, hclass, hqueue, find?_tag_of_nodup hnodup, Port.removeQueued, Port.mapRow,
    eraseP_tag_of_nodup hnodup]

theorem takeWithdraw_awarded {a : AwardRecord} (hmode : (s.port p).mode ≠ .rehearsal)
    (huniq : ((s.port p).records.map (fun b => b.tag)).Nodup) (ha : a ∈ (s.port p).awards) :
    s.takeWithdraw p a.bid.tag = s.pushSwitch (.withdrawAnswer p a.bid.tag .late) := by
  have hclass : (s.port p).queuedClass a.bid.tag = none :=
    Port.queuedClass_eq_none fun b hb => Port.tag_ne_of_queued_awarded huniq hb ha
  obtain ⟨x, hx⟩ := Port.award?_of_mem ha
  simp [State.takeWithdraw, hmode, hclass, hx]

theorem takeWithdraw_absent (hmode : (s.port p).mode ≠ .rehearsal) (h : ∀ b ∈ (s.port p).records, b.tag ≠ tag) :
    s.takeWithdraw p tag = s.pushSwitch (.withdrawAnswer p tag .unknown) := by
  have hclass : (s.port p).queuedClass tag = none :=
    Port.queuedClass_eq_none fun b hb => h b (List.mem_append_left _ hb)
  have haward : (s.port p).award? tag = none :=
    Port.award?_eq_none fun a ha => h a.bid (Port.mem_records.mpr (.inr ⟨a, ha, rfl⟩))
  simp [State.takeWithdraw, hmode, hclass, haward]

end

/-- Settles O34: a tag is at one place of the port, by the uniqueness of its tags. -/
theorem withdrawIsAnswered : Obligations.WithdrawIsAnswered := by
  intro p tag s h htags s0 P answer
  simp only [answer]
  rw [exec_withdraw h]
  have huniq : ((s0.port p).records.map (fun b => b.tag)).Nodup := htags p
  refine ⟨fun hreh => ?rehearsal, fun hmode => ⟨fun c before after b hqueue htag => ?queued,
    fun a ha htag => ?awarded, fun habsent => ?absent⟩⟩
  case rehearsal => rw [takeWithdraw_rehearsal (s := s0) hreh]
  case queued =>
    subst htag
    rw [takeWithdraw_queued (s := s0) hmode huniq hqueue]; rfl
  case awarded =>
    subst htag
    rw [takeWithdraw_awarded (s := s0) hmode huniq ha]
  case absent => rw [takeWithdraw_absent (s := s0) hmode habsent]

end Sys2Proof.Machine
end

section
/-! PROOFS. SOURCE-SET (O51): the entry that a request gives, and what the intake answers in each case of R41. -/

namespace Sys2Proof.Machine

/-! ## Codes and numbers of an entry -/

/-- A byte above 63 names no entry (R41). -/
theorem index64_eq_none {b : Byte} (h : 64 ≤ b.toNat) : index64 b = none := by
  simp [index64, Nat.not_lt.mpr h]

theorem index64_eq_some {b : Byte} {e : Fin 64} (h : b.toNat = e.val) : index64 b = some e := by
  simp [index64, h]

/-- The two defined codes of an admission (Table 11.4). -/
theorem admissionOf_of_lt {b : Byte} (h : b.toNat < 2) :
    admissionOf b = some (if b = 0 then .admitted else .muted) := by
  have codes : b = 0 ∨ b = 1 := by bv_omega
  rcases codes with rfl | rfl <;> rfl

theorem admissionOf_of_ge {b : Byte} (h : 2 ≤ b.toNat) : admissionOf b = none := by
  have h0 : b ≠ 0 := by bv_omega
  have h1 : b ≠ 1 := by bv_omega
  rw [admissionOf, if_neg h0, if_neg h1]

/-! ## The entry of a SOURCE-SET request -/

/-- The entry that a request with defined codes gives: its six fields, a limit of 0 as 1, and the outstanding count of
the entry as it stands (R41, R42). -/
def requestedEntry (b : SourceBody) (x : SourceEntry) : SourceEntry :=
  { valid := b.valid = 1, matchBase := b.matchBase, matchMask := b.matchMask, cls := Fin.ofNat 16 b.cls.toNat,
    limit := max 1 b.limit.toNat, admission := if b.admission = 0 then .admitted else .muted,
    outstanding := x.outstanding }

/-- The request changes the identity of the entry (R41 step 4). -/
def sourceIdentityChanges (b : SourceBody) (x : SourceEntry) : Prop :=
  b.matchBase ≠ x.matchBase ∨ b.matchMask ≠ x.matchMask ∨ (requestedEntry b x).cls ≠ x.cls
    ∨ (x.valid = true ∧ (requestedEntry b x).valid = false)

theorem SourceEntry.identityChanges_iff (x : SourceEntry) (b : SourceBody) :
    x.identityChanges (requestedEntry b x).valid b (requestedEntry b x).cls = true ↔ sourceIdentityChanges b x := by
  simp [SourceEntry.identityChanges, sourceIdentityChanges, or_assoc]

/-- Only the lower bound of a limit can be missed by one byte (R41 step 5). -/
theorem clamp_limit (b : SourceBody) : clamp 1 255 b.limit.toNat = max 1 b.limit.toNat := by
  have := b.limit.isLt
  simp only [clamp]; omega

theorem limit_raised_iff (b : SourceBody) : max 1 b.limit.toNat ≠ b.limit.toNat ↔ b.limit = 0 := by
  constructor <;> intro h <;> bv_omega

theorem index16_cls {b : SourceBody} (h : b.cls.toNat < 16) : index16 b.cls = some (Fin.ofNat 16 b.cls.toNat) :=
  index16_eq_some (Nat.mod_eq_of_lt h).symm

/-! ## What SOURCE-SET gives in each case of R41 -/

section
variable {eb : Byte} {b : SourceBody} {s : State} {e : EntryNo}

theorem serveSourceSet_notAllowed (h : 64 ≤ eb.toNat) :
    serveSourceSet eb b s = { st := s, result := .notAllowed, body := zeros 12 } := by
  simp [serveSourceSet, index64_eq_none h]

theorem serveSourceSet_badClass (he : eb.toNat = e.val) (h : 16 ≤ b.cls.toNat) :
    serveSourceSet eb b s = sourceReply eb e .notAllowed s := by
  simp [serveSourceSet, index64_eq_some he, sourceSet, index16_eq_none h]

theorem serveSourceSet_inconsistent (he : eb.toNat = e.val) (hc : b.cls.toNat < 16)
    (h : 2 ≤ b.valid.toNat ∨ 2 ≤ b.admission.toNat) :
    serveSourceSet eb b s = sourceReply eb e .inconsistent s := by
  rcases h with hv | ha
  · simp [serveSourceSet, index64_eq_some he, sourceSet, index16_cls hc, flagOf_of_ge hv]
  · simp [serveSourceSet, index64_eq_some he, sourceSet, index16_cls hc, admissionOf_of_ge ha]

/-- Past the range and code checks, only a change of identity with records outstanding is refused (R41 step 4). -/
theorem serveSourceSet_of_defined (he : eb.toNat = e.val) (hc : b.cls.toNat < 16) (hv : b.valid.toNat < 2)
    (ha : b.admission.toNat < 2) :
    let x := s.source e
    serveSourceSet eb b s =
      if 0 < x.outstanding ∧ x.identityChanges (requestedEntry b x).valid b (requestedEntry b x).cls = true then
        sourceReply eb e .busy s
      else sourceReply eb e (if b.limit = 0 then .clamped else .ok) (s.setSource e (requestedEntry b x)) := by
  simp only [serveSourceSet, index64_eq_some he, sourceSet, index16_cls hc, flagOf_of_lt hv, admissionOf_of_lt ha,
    clamp_limit, limit_raised_iff, Bool.and_eq_true, decide_eq_true_eq]
  rfl

theorem serveSourceSet_busy (he : eb.toNat = e.val) (hc : b.cls.toNat < 16) (hv : b.valid.toNat < 2)
    (ha : b.admission.toNat < 2) (hout : 0 < (s.source e).outstanding) (hid : sourceIdentityChanges b (s.source e)) :
    serveSourceSet eb b s = sourceReply eb e .busy s :=
  (serveSourceSet_of_defined he hc hv ha).trans (if_pos ⟨hout, (SourceEntry.identityChanges_iff _ _).mpr hid⟩)

/-- The entry is replaced whole, and the reply carries it as stored (R41 step 5, R42). -/
theorem serveSourceSet_stored (he : eb.toNat = e.val) (hc : b.cls.toNat < 16) (hv : b.valid.toNat < 2)
    (ha : b.admission.toNat < 2)
    (hfree : (s.source e).outstanding = 0 ∨ ¬ sourceIdentityChanges b (s.source e)) :
    serveSourceSet eb b s =
      { st := s.setSource e (requestedEntry b (s.source e)), result := if b.limit = 0 then .clamped else .ok,
        body := eb :: (requestedEntry b (s.source e)).bytes } := by
  have hkept : ¬ (0 < (s.source e).outstanding ∧ (s.source e).identityChanges
      (requestedEntry b (s.source e)).valid b (requestedEntry b (s.source e)).cls = true) := by
    rw [SourceEntry.identityChanges_iff]
    rintro ⟨hout, hid⟩
    exact hfree.elim hout.ne' (fun h => h hid)
  rw [serveSourceSet_of_defined he hc hv ha, if_neg hkept, sourceReply, State.source_setSource_same]

/-- A SOURCE-SET that is next to be served is answered with what `serveSourceSet` gives. -/
theorem exec_sourceSet (h : s.requestNext (.request (.sourceSet eb b))) :
    exec (.sourceSet eb b) s = .next (State.replyWith s.taken 0x20 (serveSourceSet eb b s.taken)).settle :=
  event_serveRequest h rfl

end

/-- Settles O51: each case of R41 is one lemma about `serveSourceSet`. -/
theorem sourceSetStoresTheEntry : Obligations.SourceSetStoresTheEntry := by
  intro eb b s h replies
  unfold replies
  rw [exec_sourceSet h]
  refine ⟨fun hrange => ?range, fun e he => ⟨fun hcls => ?cls, fun hcls hcodes => ?codes, fun hcls hv ha =>
    ⟨fun hout hid => ?busy, fun hfree => ?stored⟩⟩⟩
  case range => rw [serveSourceSet_notAllowed hrange]; rfl
  case cls => rw [serveSourceSet_badClass he hcls]; rfl
  case codes => rw [serveSourceSet_inconsistent he hcls hcodes]; rfl
  case busy => rw [serveSourceSet_busy (s := s.taken) he hcls hv ha hout hid]; rfl
  case stored => rw [serveSourceSet_stored (s := s.taken) he hcls hv ha hfree]; rfl

end Sys2Proof.Machine
end

section
/-! PROOFS. What a step can do to the bid state: the ports, commit groups, sources, pool and log change only by the
changes listed in `BidChange`, whatever the command. Every law on that state is kept by a step once each change keeps it. -/

namespace Sys2Proof.Machine

open Sys2Proof.Wire (Verdict SwIn Examined examine kindOf)

/-! ## The bid state -/

/-- The two states agree in the ports, the commit groups, the source map, the pool and the log. -/
structure State.SameBidState (s t : State) : Prop where
  ports : t.ports = s.ports
  groups : t.groups = s.groups
  sources : t.sources = s.sources
  pool : t.pool = s.pool
  log : t.log = s.log

theorem State.SameBidState.refl (s : State) : s.SameBidState s := ⟨rfl, rfl, rfl, rfl, rfl⟩

theorem State.SameBidState.symm {s t : State} (h : s.SameBidState t) : t.SameBidState s :=
  ⟨h.ports.symm, h.groups.symm, h.sources.symm, h.pool.symm, h.log.symm⟩

theorem State.SameBidState.trans {s t u : State} (h : s.SameBidState t) (k : t.SameBidState u) : s.SameBidState u :=
  ⟨k.ports.trans h.ports, k.groups.trans h.groups, k.sources.trans h.sources, k.pool.trans h.pool, k.log.trans h.log⟩

section
variable {s t : State} (h : s.SameBidState t)
include h

theorem State.SameBidState.port (p : PortNo) : t.port p = s.port p := State.port_congr h.ports p

theorem State.SameBidState.source (e : EntryNo) : t.source e = s.source e := State.source_congr h.sources e

end

/-! ## Notices in closed form -/

/-- The management link unit after a NOTICE has been called for (R143). -/
def MgUnit.afterCall (u : MgUnit) : MgUnit := if u.noticeWaiting then u else { u with outq := u.outq ++ [.notice none] }

/-- The management link unit after the cause of a notice kind (R142, R143). -/
def MgUnit.afterCause (u : MgUnit) (k : NoticeKind) : MgUnit :=
  let v := { u with notices := { u.notices with pending := u.notices.pending ||| k.mask } }
  if u.enables &&& k.mask != 0 then v.afterCall else v

theorem State.callNotice_eq (s : State) : s.callNotice = { s with mg := s.mg.afterCall } := by
  unfold State.callNotice MgUnit.afterCall; split <;> rfl

theorem State.noticeCause_eq (s : State) (k : NoticeKind) : s.noticeCause k = { s with mg := s.mg.afterCause k } := by
  unfold State.noticeCause MgUnit.afterCause
  dsimp only
  split
  · rw [State.callNotice_eq]
  · rfl

/-! ## What the links do leaves the bid state as it is -/

theorem sameBidState_settle (s : State) : s.SameBidState s.settle := by constructor <;> simp

theorem sameBidState_callNotice (s : State) : s.SameBidState s.callNotice := by constructor <;> simp

theorem sameBidState_noticeCause (s : State) (k : NoticeKind) : s.SameBidState (s.noticeCause k) := by
  constructor <;> simp

theorem sameBidState_reportFault (s : State) (f : FaultReport) : s.SameBidState (s.reportFault f) := by
  constructor <;> simp

theorem sameBidState_pushSwitch (s : State) (f : SwOut) : s.SameBidState (s.pushSwitch f) := ⟨rfl, rfl, rfl, rfl, rfl⟩

theorem sameBidState_gradeCause (s : State) (p : PortNo) : s.SameBidState (s.gradeCause p) := by constructor <;> simp

theorem sameBidState_queueReply (s : State) (k : Byte) (r : ReplyResult) (b : List Byte) (o : OnSent) :
    s.SameBidState (s.queueReply k r b o) := ⟨rfl, rfl, rfl, rfl, rfl⟩

theorem sameBidState_taken (s : State) : s.SameBidState s.taken := ⟨rfl, rfl, rfl, rfl, rfl⟩

theorem sameBidState_joinInbound (s : State) (f : RequestFrame) : s.SameBidState (s.joinInbound f) := by
  unfold State.joinInbound; split <;> exact ⟨rfl, rfl, rfl, rfl, rfl⟩

theorem sameBidState_completeAssembly (s : State) : s.SameBidState s.completeAssembly := by
  unfold State.completeAssembly
  split
  · split
    · refine State.SameBidState.trans ?_ (sameBidState_joinInbound _ _)
      exact ⟨rfl, rfl, rfl, rfl, rfl⟩
    · exact .refl s
  · exact .refl s

theorem sameBidState_receiveCharacter (s : State) (c : Byte) : s.SameBidState (s.receiveCharacter c) := by
  refine (sameBidState_completeAssembly s).trans ?_
  unfold State.receiveCharacter
  dsimp only
  split
  · exact ⟨rfl, rfl, rfl, rfl, rfl⟩
  · split <;> exact ⟨rfl, rfl, rfl, rfl, rfl⟩

/-- What each element of a list leaves as it is, the fold over the list leaves as it is. -/
theorem sameBidState_foldl {α : Type} {f : State → α → State} (hf : ∀ (s : State) a, s.SameBidState (f s a)) (s : State)
    (l : List α) : s.SameBidState (l.foldl f s) := by
  induction l generalizing s with
  | nil => exact .refl s
  | cons a l ih => exact (hf s a).trans (ih (f s a))

theorem sameBidState_offerRequest (s : State) (want : Verdict → Bool) (f : RequestFrame) :
    s.SameBidState (s.offerRequest want f) := by
  refine (sameBidState_completeAssembly s).trans ?_
  unfold State.offerRequest
  dsimp only
  split
  · exact .refl _
  · exact sameBidState_joinInbound _ _

theorem sameBidState_replyWith (s : State) (k : Byte) (v : Served) : v.st.SameBidState (s.replyWith k v) := by
  refine (sameBidState_queueReply v.st k v.result v.body v.onSent).trans ?_
  unfold State.replyWith
  dsimp only
  split
  · exact sameBidState_callNotice _
  · exact .refl _

theorem sameBidState_setRx (s : State) (rx : List Byte) : s.SameBidState (s.setRx rx) := ⟨rfl, rfl, rfl, rfl, rfl⟩

theorem sameBidState_huntRx (s : State) : s.SameBidState s.huntRx := by
  unfold State.huntRx
  split
  · exact sameBidState_setRx s _
  · exact .refl s

theorem sameBidState_loseFraming (s : State) : s.SameBidState s.loseFraming := by
  refine State.SameBidState.trans ?_ (sameBidState_reportFault _ _)
  exact ⟨rfl, rfl, rfl, rfl, rfl⟩

theorem sameBidState_receiveByte (s : State) (b : Byte) : s.SameBidState (s.receiveByte b) := by
  unfold State.receiveByte
  split
  · exact (sameBidState_setRx s _).trans (sameBidState_huntRx _)
  · split
    · exact (sameBidState_setRx s _).trans (sameBidState_loseFraming _)
    · exact .refl s

theorem sameBidState_arrive (s : State) (want : Examined → Bool) (bs : List Byte) : s.SameBidState (s.arrive want bs) := by
  unfold State.arrive
  split
  · exact .refl s
  · exact sameBidState_foldl sameBidState_receiveByte s bs

theorem sameBidState_frameSent (s : State) : s.SameBidState s.frameSent := by
  unfold State.frameSent
  split
  · split
    · exact .refl s
    · dsimp only
      split
      · unfold State.replySent; split <;> exact ⟨rfl, rfl, rfl, rfl, rfl⟩
      · exact ⟨rfl, rfl, rfl, rfl, rfl⟩
  · exact .refl s

theorem sameBidState_beginManagement (s : State) : s.SameBidState s.beginManagement := by constructor <;> simp

theorem sameBidState_sendUntilReset (n : Nat) (s : State) : s.SameBidState (State.sendUntilReset n s) := by
  induction n generalizing s with
  | zero => exact .refl s
  | succ n ih =>
    unfold State.sendUntilReset
    split
    · exact ((sameBidState_beginManagement s).trans (sameBidState_frameSent _)).trans (ih _)
    · exact .refl s

/-! ## What serving and taking can do -/

/-- A serving command leaves the frame waiting, or the block acts on the state past the oldest frame (R137). -/
theorem serve_cases (want : Verdict → Bool) (f : RequestFrame) (act : State → Served) (s : State) :
    let u := s.offerRequest want f
    s.serve want f act = u
      ∨ (u.servesNow want = true ∧ ∃ g, s.serve want f act = u.taken.replyWith (kindOf g) (act u.taken)) := by
  intro u
  by_cases h : u.servesNow want = true
  · refine .inr ⟨h, ?_⟩
    have hserve : s.serve want f act = u.serveHead act := if_pos h
    rw [hserve]
    cases hin : u.mg.inbound with
    | nil => simp [State.servesNow, hin] at h
    | cons g rest =>
      refine ⟨g, ?_⟩
      simp [State.serveHead, State.replyWith, State.taken, hin]
  · exact .inl (if_neg h)

/-- The examination ends with the frame `f` (R120). -/
def isFrame (f : SwIn) (x : Examined) : Bool :=
  match x with
  | .good g _ => g == f
  | _ => false

theorem isFrame_iff {f : SwIn} {x : Examined} : isFrame f x = true ↔ ∃ n, x = .good f n := by
  cases x <;> simp [isFrame]

/-- A frame command takes its frame where that stands at the head, examined, after its bytes have arrived; else the bytes
have arrived and nothing more happens (R119, R120). -/
theorem takeFrame_eq (f : SwIn) (handle : State → State) (s : State) :
    let u := s.arrive (isFrame f) f.bytes
    State.takeFrame f handle s = if u.finds (isFrame f) then handle (u.dropRx f.bytes.length) else u := by
  intro u
  have hdef : State.takeFrame f handle s = if u.finds (isFrame f) then
      (match examine u.sw.rx with
        | .good _ n => handle (u.dropRx n)
        | _ => u) else u := rfl
  rw [hdef]
  by_cases h : u.finds (isFrame f) = true
  · obtain ⟨n, hn⟩ := isFrame_iff.mp (Bool.and_eq_true_iff.mp h).2
    rw [if_pos h, if_pos h, hn, Sys2Proof.Wire.examine_good_length hn]
  · rw [if_neg h, if_neg h]

def isDamaged (x : Examined) : Bool :=
  match x with
  | .damaged _ => true
  | _ => false

def isLost (x : Examined) : Bool := x == .lost

/-- What DAMAGED_FRAME does once its bytes have arrived (R121). -/
def State.discardDamaged (s : State) : State :=
  if s.sw.examining then
    match examine s.sw.rx with
    | .damaged n => ((s.dropRx n).reportFault (s.plainFault .linkCheck)).startPulse
    | _ => s
  else s

theorem execDamagedFrame_eq (bytes : List Byte) (s : State) :
    execDamagedFrame bytes s = event (fun s => (s.arrive isDamaged bytes).discardDamaged) s := rfl

/-- What LOSS_OF_FRAMING does once its bytes have arrived (R122, R124). -/
def State.discardLost (s : State) : State := if s.finds isLost then (s.dropRx 1).loseFraming.huntRx else s

theorem execLossOfFraming_eq (bytes : List Byte) (s : State) :
    execLossOfFraming bytes s = event (fun s => (s.arrive isLost bytes).discardLost) s := rfl

/-! ## The changes of the bid state -/

/-- The record of `a` is the one that its tag finds on the award list (R83). -/
def Port.Awarded (P : Port) (a : AwardRecord) : Prop :=
  (P.award? a.bid.tag).map AwardRecord.bid = some a.bid

/-- What the command `c` can do to the bid state, one change at a time. -/
inductive BidChange (c : Instr) : State → State → Prop
  | same {s t} (h : s.SameBidState t) : BidChange c s t
  | elapse (s n) : BidChange c s (s.elapse n)
  | counters (s p) (f : CounterPair → CounterPair) :
      BidChange c s (s.mapPort p (fun P => { P with counters := f P.counters }))
  | accept (s b e) (hoff : (s.port b.port).mode ≠ .off) (hcheck : s.checkFrom2 b = .accept e) :
      BidChange c s ((s.acceptBid b e).ladder b.port)
  | withdraw (s p k tag b) (hfind : ((s.port p).row k).queue.find? (fun x => x.tag == tag) = some b) :
      BidChange c s ((s.setPort p ((s.port p).removeQueued k tag)).returnRecord b)
  | finish (s p a moved) (hmode : (s.port p).mode ≠ .rehearsal) (ha : (s.port p).Awarded a) :
      BidChange c s ((s.finishRecord p a moved).ladder p)
  | testFinish (s p a moved) (hmode : (s.port p).mode = .rehearsal) (ha : (s.port p).Awarded a) :
      BidChange c s ((s.finishRecord p a moved).afterTestFinish p s.log.full)
  | lapse (s p a) (ha : (s.port p).Awarded a) : BidChange c s (s.lapseRecord p a)
  | gradeUp (s p g) (hc : c = .grade p g) (hg : g ≠ .down) :
      BidChange c s ((s.mapPort p (fun P => { P with grade := g })).gradeUp p (s.port p).grade g)
  | gradeStay (s p) (hc : c = .grade p .down) (hbefore : (s.port p).grade = .down) :
      BidChange c s (s.mapPort p (fun P => { P with grade := .down }))
  | gradeFall (s p) (hc : c = .grade p .down) (hbefore : (s.port p).grade ≠ .down) :
      BidChange c s ((s.mapPort p (fun P => { P with grade := .down })).gradeFall p)
  | strand (s p) (htimer : (s.port p).holdDownTimer ≠ none) :
      BidChange c s ((s.mapPort p (fun P => { P with holdDownTimer := none })).strand p)
  | forget (s) : BidChange c s s.takeForget
  | accrual (s p) (hc : c = .accrualTimerExpiry p) : BidChange c s (s.accrualExpiry p)
  | closeRun (s p) : BidChange c s (s.closeRun p)
  | settings (s p) (pb b) (x : PortSettings) (hc : c = .portSet pb b) (hw : 1 ≤ x.window ∧ x.window ≤ 8) :
      BidChange c s (s.storeSettings p x)
  | mode (s p) (pb mb) (m : Mode) (hc : c = .portMode pb mb)
      (hm : ¬ (m = .rehearsal ∧ (s.port p).refusesRehearsal = true)) : BidChange c s (s.acceptMode p m)
  | flush (s p) : BidChange c s (s.declineQueues p .flushed)
  | source (s e) (eb b) (x : SourceEntry) (hc : c = .sourceSet eb b)
      (hx : x.outstanding = (s.source e).outstanding) (hlimit : 1 ≤ x.limit ∧ x.limit ≤ 255) :
      BidChange c s (s.setSource e x)
  | stage (s p k) (x : Contract) (hfree : (s.port p).commitStatus ≠ .pending) (hx : x.InRange)
      (hlock : ((s.port p).lockCell k).brokenBy x = false) : BidChange c s (s.mapPort p (fun P => P.setStaged k x))
  | commit (s m) (hok : s.commitFailure m = none) : BidChange c s (s.acceptCommit m)
  | abort (s p) : BidChange c s (s.abortPort p)
  | lock (s p k) (pb cb) (hc : c = .lock pb cb) (hfree : (s.port p).commitStatus ≠ .pending)
      (hvalid : ((s.port p).row k).contract.valid = true) (hprot : ((s.port p).row k).contract.isProtected = true) :
      BidChange c s (s.mapPort p (fun P =>
        P.setLock k { locked := true, floor := ((s.port p).row k).contract.floorShare }))
  | marks (s) (l h : Nat) (hlt : l < h) (hle : h ≤ 2048) :
      BidChange c s { s with pool := { s.pool with lowMark := l, highMark := h } }.evaluatePause
  | readLog (s) : BidChange c s ({ s with log := s.log.afterRead }.afterFreeing s.log.full)
  | warm (s) : BidChange c s s.warmReset

/-- A chain of changes by one command. -/
@[reducible] def BidChanges (c : Instr) : State → State → Prop := Relation.ReflTransGen (BidChange c)

theorem BidChanges.same {c : Instr} {s t : State} (h : s.SameBidState t) : BidChanges c s t := .single (.same h)

/-! ## Chains of changes -/

section
variable {c : Instr}

theorem bidChanges_event {f : State → State} {s t : State} (hf : BidChanges c s (f s)) (h : event f s = .next t) :
    BidChanges c s t := by
  unfold event at h
  cases h
  split
  · exact hf.tail (.same (sameBidState_settle _))
  · exact .refl

theorem bidChanges_serve {want : Verdict → Bool} {f : RequestFrame} {act : State → Served} (s : State)
    (hact : ∀ u, BidChanges c u (act u).st) : BidChanges c s (s.serve want f act) := by
  have hoffer := sameBidState_offerRequest s want f
  rcases serve_cases want f act s with h | ⟨_, g, h⟩
  · rw [h]; exact .same hoffer
  · rw [h]
    exact ((BidChanges.same (hoffer.trans (sameBidState_taken _))).trans (hact _)).tail
      (.same (sameBidState_replyWith _ _ _))

theorem bidChanges_takeFrame {f : SwIn} {handle : State → State} (s : State)
    (hact : ∀ u, BidChanges c u (handle u)) : BidChanges c s (State.takeFrame f handle s) := by
  rw [takeFrame_eq]
  have harrive := sameBidState_arrive s (isFrame f) f.bytes
  split
  · exact (BidChanges.same (harrive.trans (sameBidState_setRx _ _))).trans (hact _)
  · exact .same harrive

/-- A request that only answers changes nothing. -/
theorem bidChanges_answer {want : Verdict → Bool} {f : RequestFrame} {act : State → Served} (s : State)
    (hact : ∀ u : State, u.SameBidState (act u).st) : BidChanges c s (s.serve want f act) :=
  bidChanges_serve s fun u => .same (hact u)

theorem bidChanges_count (s : State) (p : PortNo) (ev : CounterEvent) (k : Option ClassNo) (n : Nat) :
    BidChanges c s (s.count p ev k n) := .single (.counters s p (fun x => x.count ev k n))

/-! ## The frames of the switch -/

theorem bidChanges_declineBid (s : State) (b : BidBody) (cause : Cause) (e : Option EntryNo) :
    BidChanges c s (s.declineBid b cause e) := by
  unfold State.declineBid
  dsimp only
  refine Relation.ReflTransGen.trans ?_ ((bidChanges_count _ _ _ _ _).trans (bidChanges_count _ _ _ _ _))
  split
  · exact BidChanges.same (sameBidState_reportFault _ _)
  · exact .refl

/-- What passes check 1 is on a port that is not OFF, and passes the other checks (R51). -/
theorem checkBid_accept {s : State} {b : BidBody} {e : EntryNo} (h : s.checkBid b = .accept e) :
    (s.port b.port).mode ≠ .off ∧ s.checkFrom2 b = .accept e := by
  unfold State.checkBid at h
  split at h
  · cases h
  · cases h
  · rename_i hoff _; exact ⟨hoff, h⟩

theorem bidChanges_takeBid (b : BidBody) (s : State) : BidChanges c s (s.takeBid b) := by
  unfold State.takeBid
  split
  · exact (bidChanges_declineBid _ _ _ _).tail (.same (sameBidState_pushSwitch _ _))
  · rename_i e h
    obtain ⟨hoff, hcheck⟩ := checkBid_accept h
    exact .single (.accept s b e hoff hcheck)

theorem bidChanges_takeWithdraw (p : PortNo) (tag : Tag) (s : State) : BidChanges c s (s.takeWithdraw p tag) := by
  have hpush : ∀ o, BidChanges c s (s.pushSwitch (.withdrawAnswer p tag o)) := fun o =>
    .same (sameBidState_pushSwitch _ _)
  unfold State.takeWithdraw
  dsimp only
  split
  · exact hpush _
  · split
    · split
      · rename_i k _ _ b hb
        exact (Relation.ReflTransGen.single (.withdraw s p k tag b hb)).tail (.same (sameBidState_pushSwitch _ _))
      · exact .refl
    · split <;> exact hpush _

/-- What the search for a tag on the award list finds is the record of its own tag. -/
theorem Port.awarded_of_award? {P : Port} {tag : Tag} {a : AwardRecord} (h : P.award? tag = some a) : P.Awarded a := by
  have htag : a.bid.tag = tag := by simpa using List.find?_some h
  simp [Port.Awarded, htag, h]

theorem sameBidState_strayFinish (s : State) (p : PortNo) (tag : Tag) (q : Option BidRecord) :
    s.SameBidState (s.strayFinish p tag q) := sameBidState_reportFault s _

theorem bidChanges_takeFinish (f : FinishBody) (s : State) : BidChanges c s (s.takeFinish f) := by
  unfold State.takeFinish
  dsimp only
  split
  · exact .same (sameBidState_strayFinish _ _ _ _)
  · rename_i hmode
    split
    · rename_i a ha
      exact .single (.finish s f.port a f.moved.toNat hmode (Port.awarded_of_award? ha))
    · exact .same (sameBidState_strayFinish _ _ _ _)

theorem noticeCause_setPort (s : State) (p : PortNo) (P : Port) (k : NoticeKind) :
    (s.setPort p P).noticeCause k = (s.noticeCause k).setPort p P := by
  rw [State.noticeCause_eq, State.noticeCause_eq]
  rfl

/-- A cause of GRADE and the update of a port do not meet. -/
theorem gradeCause_mapPort (s : State) (p q : PortNo) (f : Port → Port) :
    (s.mapPort p f).gradeCause q = (s.gradeCause q).mapPort p f := by
  have hport : (s.gradeCause q).port p = s.port p := (sameBidState_gradeCause s q).port p
  rw [State.mapPort, State.mapPort, hport]
  exact noticeCause_setPort { s with mg := { s.mg with notices := { s.mg.notices with
    gradePorts := s.mg.notices.gradePorts ||| portMask q } } } p _ .grade

/-- The three effects of Table 6.4, after the cause of GRADE. -/
theorem takeGrade_eq (p : PortNo) (g : Grade) (s : State) :
    s.takeGrade p g =
      let u := (s.gradeCause p).mapPort p (fun P => { P with grade := g })
      if g ≠ .down then u.gradeUp p (s.port p).grade g
      else if (s.port p).grade ≠ .down then u.gradeFall p
      else u := by
  unfold State.takeGrade
  dsimp only
  rw [gradeCause_mapPort]

theorem bidChanges_takeGrade (p : PortNo) (g : Grade) (s : State) :
    BidChanges (.grade p g) s (s.takeGrade p g) := by
  rw [takeGrade_eq]
  have hsame := sameBidState_gradeCause s p
  have hport := hsame.port p
  refine (BidChanges.same hsame).tail ?_
  dsimp only
  split
  · rename_i hg
    rw [← hport]
    exact .gradeUp _ p g rfl hg
  · rename_i hg
    obtain rfl : g = .down := not_not.mp hg
    split
    · rename_i hbefore
      exact .gradeFall _ p rfl (hport ▸ hbefore)
    · rename_i hbefore
      exact .gradeStay _ p rfl (hport ▸ not_not.mp hbefore)

/-! ## The timers of a port -/

@[simp] theorem Port.award?_elapse (n : Nat) (P : Port) (tag : Tag) :
    (P.elapse n).award? tag = (P.award? tag).map (fun a => { a with timer := a.timer - n }) := by
  simp only [Port.award?, Port.elapse, List.find?_map]
  rfl

theorem Port.Awarded.elapse {P : Port} {a : AwardRecord} (h : P.Awarded a) (n : Nat) : (P.elapse n).Awarded a := by
  obtain ⟨x, hx, hbid⟩ := Option.map_eq_some_iff.mp h
  simp [Port.Awarded, hx, hbid]

theorem bidChanges_deadlineExpiry (p : PortNo) (tag : Tag) (s t : State)
    (h : execDeadlineExpiry p tag s = .next t) : BidChanges c s t := by
  refine bidChanges_event ?_ h
  split
  · rename_i a ha
    refine (Relation.ReflTransGen.single (.elapse s a.timer)).tail (.lapse _ p a ?_)
    rw [State.port_elapse]
    exact (Port.awarded_of_award? ha).elapse _
  · exact .refl

theorem bidChanges_holdDownExpiry (p : PortNo) (s t : State) (h : execHoldDownExpiry p s = .next t) :
    BidChanges c s t := by
  refine bidChanges_event ?_ h
  split
  · rename_i n hn
    refine (Relation.ReflTransGen.single (.elapse s n)).tail (.strand _ p ?_)
    simp [Port.elapse, hn]
  · exact .refl

theorem bidChanges_runTimerExpiry (p : PortNo) (s t : State) (h : execRunTimerExpiry p s = .next t) :
    BidChanges c s t := by
  refine bidChanges_event ?_ h
  split
  · exact (Relation.ReflTransGen.single (.elapse s _)).tail (.closeRun _ p)
  · exact .refl

theorem bidChanges_accrualTimerExpiry (p : PortNo) (s t : State) (h : execAccrualTimerExpiry p s = .next t) :
    BidChanges (.accrualTimerExpiry p) s t :=
  bidChanges_event ((Relation.ReflTransGen.single (.elapse s _)).tail (.accrual _ p rfl)) h

/-! ## The requests that change the bid state -/

theorem bidChanges_portSet (pb : Byte) (b : SettingsBody) (s : State) :
    BidChanges (.portSet pb b) s (servePortSet pb b s).st := by
  unfold servePortSet
  split
  · exact .refl
  · split
    · exact .refl
    · refine .single (.settings s _ pb b _ rfl ?_)
      simp only [clampedSettings, clamp]; omega

theorem bidChanges_portMode (pb mb : Byte) (s : State) :
    BidChanges (.portMode pb mb) s (servePortMode pb mb s).st := by
  unfold servePortMode
  split
  · exact .refl
  · split
    · exact .refl
    · split
      · exact .refl
      · rename_i hm
        exact .single (.mode s _ pb mb _ rfl hm)

theorem bidChanges_portFlush (pb : Byte) (s : State) : BidChanges c s (servePortFlush pb s).st := by
  unfold servePortFlush
  split
  · exact .single (.flush s _)
  · exact .refl

theorem bidChanges_sourceSet (eb : Byte) (b : SourceBody) (s : State) :
    BidChanges (.sourceSet eb b) s (serveSourceSet eb b s).st := by
  unfold serveSourceSet
  split
  · unfold sourceSet
    split
    · exact .refl
    · dsimp only
      split
      · exact .refl
      · refine .single (.source s _ eb b _ rfl rfl ?_)
        simp only [clamp]; omega
    · exact .refl
  · exact .refl

/-- A consistent request gives a contract in the ranges of Table 1.1 (R6, R7). -/
theorem consistentContract_inRange {b : ContractBody} {x : Contract} (h : consistentContract b = some x) :
    x.InRange := by
  by_cases hgood : stageConsistent b
  · rw [consistentContract_eq_some hgood] at h
    cases h
    obtain ⟨_, hshares, hbursts⟩ := hgood
    have := b.ceilingBurst.isLt
    have := b.runHold.isLt
    refine ⟨hshares, ?_, ?_, hbursts, ?_, ?_, ?_, ?_, ?_⟩ <;> simp only [clampedContract] <;> omega
  · rw [consistentContract_eq_none hgood] at h
    cases h

theorem bidChanges_contractStage (pb cb : Byte) (b : ContractBody) (s : State) :
    BidChanges c s (serveContractStage pb cb b s).st := by
  unfold serveContractStage
  split
  · split
    · exact .refl
    · rename_i hfree
      split
      · exact .refl
      · rename_i x hx
        split
        · exact .refl
        · rename_i hlock
          exact .single (.stage s _ _ x hfree (consistentContract_inRange hx) (Bool.eq_false_of_not_eq_true hlock))
  · exact .refl

theorem bidChanges_commit (m : PortSet) (s : State) : BidChanges c s (serveCommit m s).st := by
  unfold serveCommit
  split
  · exact .refl
  · rename_i hok
    exact .single (.commit s m hok)

theorem bidChanges_abortCommit (m : PortSet) (s : State) : BidChanges c s (serveAbortCommit m s).st := by
  show BidChanges c s ((ascending.filter (names m)).foldl State.abortPort s)
  generalize ascending.filter (names m) = ps
  induction ps generalizing s with
  | nil => exact .refl
  | cons p ps ih => exact (ih (s.abortPort p)).head (.abort s p)

theorem bidChanges_lock (pb cb : Byte) (s : State) : BidChanges (.lock pb cb) s (serveLock pb cb s).st := by
  unfold serveLock
  split
  · dsimp only
    split
    · exact .refl
    · rename_i hfree
      split
      · exact .refl
      · rename_i hrow
        simp only [Bool.or_eq_true, Bool.not_eq_true', not_or, Bool.not_eq_false] at hrow
        exact .single (.lock s _ _ pb cb rfl hfree hrow.1 hrow.2)
  · exact .refl

theorem bidChanges_poolSet (lo hi : BitVec 16) (s : State) : BidChanges c s (servePoolSet lo hi s).st := by
  refine .single (.marks s (clampedMarks lo.toNat hi.toNat).1 (clampedMarks lo.toNat hi.toNat).2 ?_ ?_) <;>
    rw [clampedMarks_eq] <;> dsimp only <;> omega

theorem bidChanges_counterSelect (pb eb cb : Byte) (s : State) :
    BidChanges c s (serveCounterSelect pb eb cb s).st := by
  unfold serveCounterSelect
  split
  · split
    · exact .refl
    · exact .single (.counters s _ fun _ => _)
  · exact .refl

theorem bidChanges_counterRead (pb rb : Byte) (s : State) : BidChanges c s (serveCounterRead pb rb s).st := by
  unfold serveCounterRead
  split
  · exact .refl
  · exact .refl
  · dsimp only
    split
    · exact .single (.counters s _ CounterPair.cleared)
    · exact .refl

theorem bidChanges_testBid (b : BidBody) (s : State) : BidChanges c s (serveTestBid b s).st := by
  unfold serveTestBid
  split
  · exact .refl
  · rename_i hmode
    split
    · exact bidChanges_declineBid _ _ _ _
    · rename_i e h
      refine .single (.accept s b e ?_ h)
      rw [not_not.mp hmode]; decide

theorem bidChanges_testFinish (f : FinishBody) (s : State) : BidChanges c s (serveTestFinish f s).st := by
  unfold serveTestFinish
  dsimp only
  split
  · exact .refl
  · rename_i hmode
    split
    · rename_i a ha
      exact .single (.testFinish s f.port a f.moved.toNat (not_not.mp hmode) (Port.awarded_of_award? ha))
    · exact .same (sameBidState_strayFinish _ _ _ _)

theorem bidChanges_rehearsalRead (s : State) : BidChanges c s (serveRehearsalRead s).st := .single (.readLog s)

theorem bidChanges_warmReset (s t : State) (h : execWarmReset s = .next t) : BidChanges c s t := by
  refine bidChanges_event ?_ h
  have hsent := sameBidState_sendUntilReset s.mg.outq.length s
  dsimp only
  split
  · exact (BidChanges.same hsent).tail (.warm _)
  · exact .same hsent

/-! ## Commands of the two links -/

/-- An event that only moves bytes, characters, frames or link settings. -/
theorem bidChanges_linkEvent {f : State → State} {s t : State} (hf : s.SameBidState (f s)) (h : event f s = .next t) :
    BidChanges c s t := bidChanges_event (.same hf) h

theorem bidChanges_damagedFrame (bytes : List Byte) (s t : State) (h : execDamagedFrame bytes s = .next t) :
    BidChanges c s t := by
  refine bidChanges_linkEvent ((sameBidState_arrive s isDamaged bytes).trans ?_) (execDamagedFrame_eq bytes s ▸ h)
  unfold State.discardDamaged
  split
  · split
    · exact ((sameBidState_setRx _ _).trans (sameBidState_reportFault _ _)).trans ⟨rfl, rfl, rfl, rfl, rfl⟩
    · exact .refl _
  · exact .refl _

theorem bidChanges_lossOfFraming (bytes : List Byte) (s t : State) (h : execLossOfFraming bytes s = .next t) :
    BidChanges c s t := by
  refine bidChanges_linkEvent ((sameBidState_arrive s isLost bytes).trans ?_) (execLossOfFraming_eq bytes s ▸ h)
  unfold State.discardLost
  split
  · exact ((sameBidState_setRx _ _).trans (sameBidState_loseFraming _)).trans (sameBidState_huntRx _)
  · exact .refl _

theorem bidChanges_syncResyncEnd (s t : State) (h : execSyncResyncEnd s = .next t) : BidChanges c s t := by
  refine bidChanges_linkEvent ?_ h
  have hend : ∀ u : State, u.SameBidState (if u.atSync then u.endResync else u) := fun u => by
    split
    · exact ⟨rfl, rfl, rfl, rfl, rfl⟩
    · exact .refl u
  split
  · exact .refl s
  · dsimp only
    refine State.SameBidState.trans ?_ (hend _)
    split
    · exact .refl s
    · exact sameBidState_foldl sameBidState_receiveByte s _

theorem bidChanges_syncInSynced (s t : State) (h : execSyncInSynced s = .next t) : BidChanges c s t := by
  refine bidChanges_event ?_ h
  split
  · exact bidChanges_takeFrame s fun _ => .refl
  · exact .refl

theorem bidChanges_checkPulseExpiry (s t : State) (h : execCheckPulseExpiry s = .next t) : BidChanges c s t := by
  refine bidChanges_event ?_ h
  split
  · rename_i n _
    refine (Relation.ReflTransGen.single (.elapse s n)).trans (BidChanges.same ?_)
    exact ⟨rfl, rfl, rfl, rfl, rfl⟩
  · exact .refl

theorem bidChanges_frameAbandoned (s t : State) (h : execFrameAbandoned s = .next t) : BidChanges c s t := by
  refine bidChanges_event ?_ h
  split
  · rename_i a _
    split
    · exact .refl
    · refine (Relation.ReflTransGen.single (.elapse s a.gap)).tail (.same ?_)
      refine State.SameBidState.trans ?_ (sameBidState_joinInbound _ _)
      exact ⟨rfl, rfl, rfl, rfl, rfl⟩
  · exact .refl

theorem bidChanges_requestFrameComplete (chars : List Byte) (s t : State)
    (h : execRequestFrameComplete chars s = .next t) : BidChanges c s t := by
  refine bidChanges_linkEvent ?_ h
  refine State.SameBidState.trans ?_ (sameBidState_completeAssembly _)
  split
  · exact .refl s
  · exact sameBidState_foldl sameBidState_receiveCharacter s _

end

/-! ## Requests that read -/

theorem servePortRead_same (pb : Byte) (s : State) : s.SameBidState (servePortRead pb s).st := by
  unfold servePortRead; split <;> exact .refl s

theorem serveSourceRead_same (eb : Byte) (s : State) : s.SameBidState (serveSourceRead eb s).st := by
  unfold serveSourceRead; split <;> exact .refl s

theorem serveContractRead_same (pb cb set : Byte) (s : State) : s.SameBidState (serveContractRead pb cb set s).st := by
  unfold serveContractRead
  split
  · dsimp only
    split
    · exact .refl s
    · split <;> exact .refl s
  · exact .refl s

theorem serveQueueRead_same (pb cb : Byte) (s : State) : s.SameBidState (serveQueueRead pb cb s).st := by
  unfold serveQueueRead; split <;> exact .refl s

theorem serveFaultMode_same (v : Byte) (s : State) : s.SameBidState (serveFaultMode v s).st := by
  unfold serveFaultMode
  split
  · exact .refl s
  · exact ⟨rfl, rfl, rfl, rfl, rfl⟩

/-! ## The inversion of a step -/

/-- What a command does to the bid state is a chain of the listed changes; only the release of the reset line gives the
cold values instead. -/
theorem bidChanges_exec {c : Instr} {s t : State} (h : exec c s = .next t) (hc : c ≠ .coldResetRelease) :
    BidChanges c s t := by
  cases c with
  | swByteReceived b => exact bidChanges_linkEvent (f := fun s => s.receiveByte b) (sameBidState_receiveByte s b) h
  | examinationResume => exact bidChanges_linkEvent (sameBidState_huntRx s) h
  | damagedFrame bytes => exact bidChanges_damagedFrame bytes s t h
  | lossOfFraming bytes => exact bidChanges_lossOfFraming bytes s t h
  | syncResyncEnd => exact bidChanges_syncResyncEnd s t h
  | syncInSynced => exact bidChanges_syncInSynced s t h
  | bid body => exact bidChanges_event (bidChanges_takeFrame s (bidChanges_takeBid body)) h
  | withdraw p tag => exact bidChanges_event (bidChanges_takeFrame s (bidChanges_takeWithdraw p tag)) h
  | finish body => exact bidChanges_event (bidChanges_takeFrame s (bidChanges_takeFinish body)) h
  | grade p g => exact bidChanges_event (bidChanges_takeFrame s (bidChanges_takeGrade p g)) h
  | forget => exact bidChanges_event (bidChanges_takeFrame s fun u => .single (.forget u)) h
  | checkPulseExpiry => exact bidChanges_checkPulseExpiry s t h
  | swOutboundFrameSent =>
    refine bidChanges_linkEvent ?_ h
    dsimp only
    split
    · exact ⟨rfl, rfl, rfl, rfl, rfl⟩
    · exact .refl s
  | accrualTimerExpiry p => exact bidChanges_accrualTimerExpiry p s t h
  | runTimerExpiry p => exact bidChanges_runTimerExpiry p s t h
  | deadlineExpiry p tag => exact bidChanges_deadlineExpiry p tag s t h
  | holdDownExpiry p => exact bidChanges_holdDownExpiry p s t h
  | requestFrameComplete chars => exact bidChanges_requestFrameComplete chars s t h
  | frameAbandoned => exact bidChanges_frameAbandoned s t h
  | badFrameRequest f => exact bidChanges_event (bidChanges_answer s fun u => .refl u) h
  | unknownKindRequest chars => exact bidChanges_event (bidChanges_answer s fun u => .refl u) h
  | mgFrameSent => exact bidChanges_linkEvent (sameBidState_frameSent s) h
  | identify => exact bidChanges_event (bidChanges_answer s fun u => .refl u) h
  | lineRate d => exact bidChanges_event (bidChanges_answer s fun u => ⟨rfl, rfl, rfl, rfl, rfl⟩) h
  | status => exact bidChanges_event (bidChanges_answer s fun u => .refl u) h
  | noticeEnable k => exact bidChanges_event (bidChanges_answer s fun u => ⟨rfl, rfl, rfl, rfl, rfl⟩) h
  | noticeAck k => exact bidChanges_event (bidChanges_answer s fun u => ⟨rfl, rfl, rfl, rfl, rfl⟩) h
  | reset => exact bidChanges_event (bidChanges_answer s fun u => ⟨rfl, rfl, rfl, rfl, rfl⟩) h
  | warmReset => exact bidChanges_warmReset s t h
  | coldResetAssert =>
    cases h
    exact .same ⟨rfl, rfl, rfl, rfl, rfl⟩
  | coldResetRelease => exact absurd rfl hc
  | portSet pb b => exact bidChanges_event (bidChanges_serve s (bidChanges_portSet pb b)) h
  | portRead pb => exact bidChanges_event (bidChanges_answer s (servePortRead_same pb)) h
  | portMode pb mb => exact bidChanges_event (bidChanges_serve s (bidChanges_portMode pb mb)) h
  | portFlush pb => exact bidChanges_event (bidChanges_serve s (bidChanges_portFlush pb)) h
  | sourceSet eb b => exact bidChanges_event (bidChanges_serve s (bidChanges_sourceSet eb b)) h
  | sourceRead eb => exact bidChanges_event (bidChanges_answer s (serveSourceRead_same eb)) h
  | contractStage pb cb b => exact bidChanges_event (bidChanges_serve s (bidChanges_contractStage pb cb b)) h
  | contractRead pb cb set => exact bidChanges_event (bidChanges_answer s (serveContractRead_same pb cb set)) h
  | commit m => exact bidChanges_event (bidChanges_serve s (bidChanges_commit m)) h
  | abortCommit m => exact bidChanges_event (bidChanges_serve s (bidChanges_abortCommit m)) h
  | lock pb cb => exact bidChanges_event (bidChanges_serve s (bidChanges_lock pb cb)) h
  | queueRead pb cb => exact bidChanges_event (bidChanges_answer s (serveQueueRead_same pb cb)) h
  | poolSet lo hi => exact bidChanges_event (bidChanges_serve s (bidChanges_poolSet lo hi)) h
  | poolRead => exact bidChanges_event (bidChanges_answer s fun u => .refl u) h
  | faultRead => exact bidChanges_event (bidChanges_answer s fun u => .refl u) h
  | faultClear => exact bidChanges_event (bidChanges_answer s fun u => ⟨rfl, rfl, rfl, rfl, rfl⟩) h
  | faultMode v => exact bidChanges_event (bidChanges_answer s (serveFaultMode_same v)) h
  | counterSelect pb eb cb => exact bidChanges_event (bidChanges_serve s (bidChanges_counterSelect pb eb cb)) h
  | counterRead pb rb => exact bidChanges_event (bidChanges_serve s (bidChanges_counterRead pb rb)) h
  | testBid b => exact bidChanges_event (bidChanges_serve s (bidChanges_testBid b)) h
  | testFinish f => exact bidChanges_event (bidChanges_serve s (bidChanges_testFinish f)) h
  | rehearsalRead => exact bidChanges_event (bidChanges_serve s bidChanges_rehearsalRead) h
  | mgCharacterReceived ch => exact bidChanges_linkEvent (f := fun s => s.receiveCharacter ch) (sameBidState_receiveCharacter s ch) h

/-- What each change keeps, a chain of changes keeps. -/
theorem BidChanges.keeps {c : Instr} {Law : State → Prop} (hchange : ∀ s t, BidChange c s t → Law s → Law t)
    {s t : State} (h : BidChanges c s t) (hs : Law s) : Law t := by
  induction h with
  | refl => exact hs
  | tail _ h ih => exact hchange _ _ h ih

/-- A law is kept by every step if each change of the bid state keeps it and the cold values meet it. -/
theorem keptByStep_of_bidChange {Law : State → Prop}
    (hchange : ∀ (c : Instr) (s t : State), BidChange c s t → Law s → Law t)
    (hreset : ∀ q, Law { State.reset with pending := q }) : KeptByStep Law := by
  intro s t hs hstep
  unfold step at hstep
  split at hstep
  · cases hstep
    unfold State.tick
    split
    · exact hchange .forget s _ (.elapse s 1) hs
    · exact hs
  · rename_i c rest _
    have hrest : Law { s with pending := rest } := hchange c s _ (.same ⟨rfl, rfl, rfl, rfl, rfl⟩) hs
    by_cases hc : c = .coldResetRelease
    · subst hc
      cases hstep
      exact hreset _
    · exact BidChanges.keeps (hchange c) (bidChanges_exec hstep hc) hrest

end Sys2Proof.Machine
end

section
/-! PROOFS. The operations that the commands share, in closed form: what the return of records leaves in the pool, the
source map and the notices (R46, R55), and what declines and drops leave of a port (R60, R94, R157). -/

namespace Sys2Proof.Machine

/-! ## Updates of one port -/

@[simp] theorem State.setPort_port (s : State) (p : PortNo) : s.setPort p (s.port p) = s := by
  have hports : (s.setPort p (s.port p)).ports = s.ports := State.ports_ext fun q => by
    rw [State.port_setPort]; split <;> simp_all
  calc s.setPort p (s.port p) = { s with ports := (s.setPort p (s.port p)).ports } := rfl
    _ = s := by rw [hports]

@[simp] theorem State.setPort_setPort (s : State) (p : PortNo) (P Q : Port) :
    (s.setPort p P).setPort p Q = s.setPort p Q := by
  simp [State.setPort]

/-- Two ports with the same rows in the same places are told apart by their other fields only. -/
theorem Port.active_ext {P Q : Port} (h : ∀ c, Q.row c = P.row c) : Q.active = P.active := by
  apply Vector.ext
  intro i hi
  exact h ⟨i, hi⟩

/-! ## The return of records (R46, R55) -/

/-- PAUSE as it stands after one record has been returned to the pool. -/
def Pool.afterReturn (u : Pool) : Pool :=
  { u with free := u.free + 1, pause := ({ u with free := u.free + 1 } : Pool).pauseNext }

theorem State.evaluatePause_eq (s : State) :
    s.evaluatePause = { s with
      pool := { s.pool with pause := s.pool.pauseNext }
      mg := if !s.pool.pause && s.pool.pauseNext then s.mg.afterCause .pool else s.mg } := by
  unfold State.evaluatePause
  dsimp only
  split
  · rw [State.noticeCause_eq]
  · rfl

@[simp] theorem State.returnRecord_pool (s : State) (r : BidRecord) : (s.returnRecord r).pool = s.pool.afterReturn := by
  rw [State.returnRecord, State.evaluatePause_eq]; rfl

theorem State.returnRecord_mg (s : State) (r : BidRecord) :
    (s.returnRecord r).mg = if s.pool.pause = false ∧ s.pool.free + 1 ≤ s.pool.lowMark then s.mg.afterCause .pool
      else s.mg := by
  rw [State.returnRecord, State.evaluatePause_eq]
  have hiff := Pool.assertsPause_iff { s.pool with free := s.pool.free + 1 }
  exact if_congr hiff.symm rfl rfl

theorem State.source_returnRecord (s : State) (r : BidRecord) (e : EntryNo) :
    (s.returnRecord r).source e = { s.source e with
      outstanding := (s.source e).outstanding - if r.source = e then 1 else 0 } := by
  have hsource : ∀ t : State, (t.evaluatePause).source e = t.source e := fun t => State.source_congr (by simp) e
  rw [State.returnRecord, hsource]
  show State.source (s.setSource _ _) e = _
  rw [State.source_setSource]
  by_cases h : r.source = e
  · subst h; simp
  · simp [h, Ne.symm h]

/-- The pool after several returns is that after the first of them and then the others. -/
theorem Pool.afterReturns_cons (u : Pool) (h : u.lowMark < u.highMark) (r : BidRecord) (rs : List BidRecord) :
    u.afterReturns (r :: rs) = u.afterReturn.afterReturns rs := by
  have hfree : u.free + (r :: rs).length = u.free + 1 + rs.length := by simp; omega
  cases rs with
  | nil =>
    simp only [Pool.afterReturns, hfree, Pool.afterReturn, reduceCtorEq, if_false, if_true, Pool.mk.injEq, true_and,
      Pool.pauseNext, List.length_nil, Nat.add_zero]
    rw [Bool.eq_iff_iff]
    cases hp : u.pause <;> simp <;> omega
  | cons x xs =>
    simp only [Pool.afterReturns, hfree, Pool.afterReturn, reduceCtorEq, if_false, Pool.mk.injEq, true_and, Pool.pauseNext]
    rw [Bool.eq_iff_iff]
    cases hp : u.pause <;> simp <;> omega

theorem Pool.afterReturns_marks (u : Pool) (rs : List BidRecord) :
    (u.afterReturns rs).lowMark = u.lowMark ∧ (u.afterReturns rs).highMark = u.highMark
      ∧ (u.afterReturns rs).free = u.free + rs.length := ⟨rfl, rfl, rfl⟩

theorem Pool.afterReturns_nil (u : Pool) : u.afterReturns [] = u := rfl

/-- Only the first return can assert PAUSE: after it the count is above the low mark or PAUSE is asserted (R55). -/
theorem Pool.returnsAssert_afterReturn (u : Pool) (h : u.lowMark < u.highMark) (rs : List BidRecord) :
    ¬ u.afterReturn.returnsAssert rs := by
  rintro ⟨_, hpause, hlow⟩
  cases hp : u.pause <;> simp [Pool.afterReturn, Pool.pauseNext, hp] at hpause hlow <;> omega

/-- The cause of the POOL notice that the return of the records is (R55). -/
def MgUnit.afterReturns (m : MgUnit) (u : Pool) (rs : List BidRecord) : MgUnit :=
  if rs ≠ [] ∧ u.pause = false ∧ u.free + 1 ≤ u.lowMark then m.afterCause .pool else m

theorem MgUnit.afterReturns_of_asserts {m : MgUnit} {u : Pool} {rs : List BidRecord} (h : u.returnsAssert rs) :
    m.afterReturns u rs = m.afterCause .pool := if_pos h

theorem MgUnit.afterReturns_of_not_asserts {m : MgUnit} {u : Pool} {rs : List BidRecord} (h : ¬ u.returnsAssert rs) :
    m.afterReturns u rs = m := if_neg h

/-- What the return of records one after another does to a state: a step that returns one record, repeated. -/
theorem foldl_returns {step : State → BidRecord → State}
    (hpool : ∀ s r, (step s r).pool = s.pool.afterReturn)
    (hmg : ∀ s r, (step s r).mg = (s.returnRecord r).mg)
    (hsource : ∀ s r e, (step s r).source e = (s.returnRecord r).source e) (s : State) (rs : List BidRecord) :
    (rs.foldl step s).pool.free = s.pool.free + rs.length
      ∧ (rs.foldl step s).pool.lowMark = s.pool.lowMark ∧ (rs.foldl step s).pool.highMark = s.pool.highMark
      ∧ (∀ e, (rs.foldl step s).source e = { s.source e with
          outstanding := (s.source e).outstanding - rs.countP (fun b => b.source == e) })
      ∧ (s.pool.lowMark < s.pool.highMark → (rs.foldl step s).pool = s.pool.afterReturns rs
          ∧ (rs.foldl step s).mg = s.mg.afterReturns s.pool rs) := by
  induction rs generalizing s with
  | nil => exact ⟨rfl, rfl, rfl, fun _ => rfl, fun _ => ⟨rfl, rfl⟩⟩
  | cons r rs ih =>
    obtain ⟨hfree, hlow, hhigh, hsources, hclosed⟩ := ih (step s r)
    refine ⟨?_, hlow.trans (by rw [hpool]; rfl), hhigh.trans (by rw [hpool]; rfl), fun e => ?_, fun hmarks => ?_⟩
    · rw [List.foldl_cons, hfree, hpool]
      simp [Pool.afterReturn]; omega
    · rw [List.foldl_cons, hsources, hsource, State.source_returnRecord, List.countP_cons]
      by_cases h : r.source = e <;> simp [h] <;> omega
    · have hmarks' : (step s r).pool.lowMark < (step s r).pool.highMark := by rw [hpool]; exact hmarks
      obtain ⟨hp, hm⟩ := hclosed hmarks'
      refine ⟨by rw [List.foldl_cons, hp, hpool, Pool.afterReturns_cons _ hmarks], ?_⟩
      rw [List.foldl_cons, hm, hpool,
        MgUnit.afterReturns_of_not_asserts (Pool.returnsAssert_afterReturn _ hmarks rs), hmg, State.returnRecord_mg]
      simp [MgUnit.afterReturns]

theorem State.returnRecords_spec (s : State) (rs : List BidRecord) :
    (s.returnRecords rs).pool.free = s.pool.free + rs.length
      ∧ (s.returnRecords rs).pool.lowMark = s.pool.lowMark ∧ (s.returnRecords rs).pool.highMark = s.pool.highMark
      ∧ (∀ e, (s.returnRecords rs).source e = { s.source e with
          outstanding := (s.source e).outstanding - rs.countP (fun b => b.source == e) })
      ∧ (s.pool.lowMark < s.pool.highMark → (s.returnRecords rs).pool = s.pool.afterReturns rs
          ∧ (s.returnRecords rs).mg = s.mg.afterReturns s.pool rs) :=
  foldl_returns State.returnRecord_pool (fun _ _ => rfl) (fun _ _ _ => rfl) s rs

/-! ## The decline of records (R60, R157) -/

theorem declineRecord_pool (p : PortNo) (c : Cause) (s : State) (r : BidRecord) :
    (State.declineRecord p c s r).pool = s.pool.afterReturn := by
  unfold State.declineRecord
  dsimp only
  split <;> simp

theorem declineRecord_mg (p : PortNo) (c : Cause) (s : State) (r : BidRecord) :
    (State.declineRecord p c s r).mg = (s.returnRecord r).mg := by
  unfold State.declineRecord
  dsimp only
  split <;> simp [State.returnRecord_mg]

theorem source_declineRecord (p : PortNo) (c : Cause) (s : State) (r : BidRecord) (e : EntryNo) :
    (State.declineRecord p c s r).source e = (s.returnRecord r).source e := by
  have hcount : ∀ t : State, (t.count p .declines (some r.cls) 1).source e = t.source e := fun t =>
    State.source_congr (by simp) e
  unfold State.declineRecord
  dsimp only
  rw [hcount, State.source_returnRecord, State.source_returnRecord]
  split <;> rfl

/-- The pool, the source map and the notices after declines are those after returns. -/
theorem State.declineRecords_spec (s : State) (p : PortNo) (c : Cause) (rs : List BidRecord) :
    (s.declineRecords p c rs).pool.free = s.pool.free + rs.length
      ∧ (s.declineRecords p c rs).pool.lowMark = s.pool.lowMark
      ∧ (s.declineRecords p c rs).pool.highMark = s.pool.highMark
      ∧ (∀ e, (s.declineRecords p c rs).source e = { s.source e with
          outstanding := (s.source e).outstanding - rs.countP (fun b => b.source == e) })
      ∧ (s.pool.lowMark < s.pool.highMark → (s.declineRecords p c rs).pool = s.pool.afterReturns rs
          ∧ (s.declineRecords p c rs).mg = s.mg.afterReturns s.pool rs) :=
  foldl_returns (declineRecord_pool p c) (declineRecord_mg p c) (source_declineRecord p c) s rs

theorem tally_add_one (x m : Nat) : tally x (m + 1) = tally (min (x + 1) counterMax) m := by
  simp only [tally]
  split <;> split <;> omega

theorem tally_zero (x : Nat) : tally x 0 = x := rfl

theorem CounterPair.afterDeclines_nil (x : CounterPair) : x.afterDeclines [] = x := by
  unfold CounterPair.afterDeclines
  split <;> rfl

/-- The counts after several DECLINES events are those after the first and then the others (R157). -/
theorem CounterPair.afterDeclines_cons (x : CounterPair) (r : BidRecord) (rs : List BidRecord) :
    x.afterDeclines (r :: rs) = (x.count .declines (some r.cls) 1).afterDeclines rs := by
  by_cases hev : x.event = .declines
  · by_cases hcls : r.cls = x.cls <;>
      simp [CounterPair.afterDeclines, CounterPair.count, hev, hcls, tally_add_one]
  · simp [CounterPair.afterDeclines, CounterPair.count, hev]

theorem State.port_declineRecord (s : State) (p q : PortNo) (c : Cause) (r : BidRecord) :
    (State.declineRecord p c s r).port q =
      if q = p then (s.port p).count .declines (some r.cls) 1 else s.port q := by
  have hports : ∀ t : State, t.ports = s.ports → ((t.returnRecord r).count p .declines (some r.cls) 1).port q
      = if q = p then (s.port p).count .declines (some r.cls) 1 else s.port q := fun t ht => by
    have hport : ∀ q, (t.returnRecord r).port q = s.port q := State.port_congr (by rw [State.returnRecord_ports, ht])
    rw [State.count, State.port_mapPort, hport, hport]
  unfold State.declineRecord
  dsimp only
  split
  · exact hports s rfl
  · exact hports _ rfl

/-- Declines change the counters of their port, and nothing else of any port (R157). -/
theorem State.port_declineRecords (s : State) (p q : PortNo) (c : Cause) (rs : List BidRecord) :
    (s.declineRecords p c rs).port q =
      if q = p then { s.port p with counters := (s.port p).counters.afterDeclines rs } else s.port q := by
  induction rs generalizing s with
  | nil =>
    rw [CounterPair.afterDeclines_nil]
    show s.port q = _
    split <;> simp_all
  | cons r rs ih =>
    refine (ih (State.declineRecord p c s r)).trans ?_
    rw [State.port_declineRecord, State.port_declineRecord, if_pos rfl, CounterPair.afterDeclines_cons]
    by_cases h : q = p
    · rw [if_pos h, if_pos h]; rfl
    · rw [if_neg h, if_neg h, if_neg h]

theorem State.declineRecords_sw (s : State) (p : PortNo) (c : Cause) (rs : List BidRecord) :
    (s.declineRecords p c rs).sw = { s.sw with outq := s.sw.outq ++
      if (s.port p).mode = .rehearsal then [] else rs.map (fun b => SwOut.decline p b.tag c) } := by
  induction rs generalizing s with
  | nil => simp [State.declineRecords]
  | cons r rs ih =>
    have hmode : ((State.declineRecord p c s r).port p).mode = (s.port p).mode := by
      rw [State.port_declineRecord, if_pos rfl]; rfl
    have hsw : (State.declineRecord p c s r).sw = { s.sw with outq := s.sw.outq ++
        if (s.port p).mode = .rehearsal then [] else [SwOut.decline p r.tag c] } := by
      unfold State.declineRecord
      dsimp only
      split <;> simp [State.pushSwitch]
    refine (ih (State.declineRecord p c s r)).trans ?_
    rw [hmode, hsw]
    by_cases h : (s.port p).mode = .rehearsal <;> simp [h]

/-- The port whose queues have been declined: every queue empty, and each record a DECLINES event (R60, R157). -/
def Port.declined (P : Port) : Port := { P.clearQueues with counters := P.counters.afterDeclines P.queued }

theorem State.port_declineQueues (s : State) (p q : PortNo) (c : Cause) :
    (s.declineQueues p c).port q = if q = p then (s.port p).declined else s.port q := by
  rw [State.declineQueues, State.port_declineRecords, State.port_mapPort_same, State.port_mapPort]
  split <;> rfl

theorem State.declineQueues_sw (s : State) (p : PortNo) (c : Cause) :
    (s.declineQueues p c).sw = { s.sw with outq := s.sw.outq ++
      if (s.port p).mode = .rehearsal then [] else (s.port p).queued.map (fun b => SwOut.decline p b.tag c) } := by
  rw [State.declineQueues, State.declineRecords_sw, State.port_mapPort_same]
  rfl

/-- Nothing but ports, sources, pool and the two links can differ after declines. -/
theorem State.declineRecords_frame (s : State) (p : PortNo) (c : Cause) (rs : List BidRecord) :
    let t := s.declineRecords p c rs
    t = { s with ports := t.ports, sources := t.sources, pool := t.pool, sw := t.sw, mg := t.mg } := by
  intro t
  have hpending : t.pending = s.pending := State.declineRecords_pending s p c rs
  have hpins : t.pins = s.pins := State.declineRecords_pins s p c rs
  have htime : t.timeBase = s.timeBase := State.declineRecords_timeBase s p c rs
  have hgroups : t.groups = s.groups := State.declineRecords_groups s p c rs
  have hfaults : t.faults = s.faults := State.declineRecords_faults s p c rs
  have hlog : t.log = s.log := State.declineRecords_log s p c rs
  rw [← hpending, ← hpins, ← htime, ← hgroups, ← hfaults, ← hlog]

/-! ## The drop of records (R94, R105) -/

/-- The port whose records have been dropped: no record queued or awarded, and no run. -/
def Port.dropped (P : Port) : Port := { P.clearQueues with awards := [], run := none }

theorem State.dropRecords_eq (s : State) (p : PortNo) :
    s.dropRecords p = (s.setPort p (s.port p).dropped).returnRecords (s.port p).records := rfl

theorem State.port_dropRecords (s : State) (p q : PortNo) :
    (s.dropRecords p).port q = if q = p then (s.port p).dropped else s.port q := by
  rw [State.dropRecords_eq, State.port_congr (State.returnRecords_ports _ _), State.port_setPort]

end Sys2Proof.Machine
end

section
/-! PROOFS. The selection ladder: what a pass selects, what an award does to its port, and the induction over a selection
opportunity (R62 to R76). -/

namespace Sys2Proof.Machine

/-! ## What a pass selects -/

/-- The selection names a valid row with a queued record and with credit of its charge kind (R65, R67). -/
structure Port.Selects (P : Port) (x : Selection) : Prop where
  valid : (P.row x.cls).contract.valid = true
  queue : (P.row x.cls).queue ≠ []
  credit : 0 < (P.row x.cls).credit x.charge

theorem Port.selects_congr {P Q : Port} {x : Selection} (hrow : Q.row x.cls = P.row x.cls) (h : P.Selects x) :
    Q.Selects x := by
  obtain ⟨hvalid, hqueue, hcredit⟩ := h
  exact ⟨hrow ▸ hvalid, hrow ▸ hqueue, hrow ▸ hcredit⟩

theorem Port.scanStep_selects {P : Port} {l : Lane} {k : Charge} {x : Selection} (h : P.scanStep l k = some x) :
    P.Selects x := by
  obtain ⟨c, hc, rfl⟩ := Option.map_eq_some_iff.mp h
  have hmeets := List.find?_some hc
  simp only [Row.meets, Bool.and_eq_true, Bool.not_eq_true', List.isEmpty_eq_false_iff, decide_eq_true_eq] at hmeets
  obtain ⟨⟨⟨hvalid, _⟩, hqueue⟩, hcredit⟩ := hmeets
  exact ⟨hvalid, hqueue, hcredit⟩

theorem Port.runStep_selects {P : Port} {x : Selection} (h : P.runStep = some x) : P.Selects x := by
  unfold Port.runStep at h
  split at h
  · cases h
  · split at h
    · rename_i hcont
      cases h
      simp only [Run.continuedBy, Bool.and_eq_true, Bool.or_eq_true, decide_eq_true_eq] at hcont
      obtain ⟨⟨hvalid, hhead⟩, hcredit⟩ := hcont
      refine ⟨hvalid, fun hnil => by simp [hnil] at hhead, ?_⟩
      dsimp only
      split
      · assumption
      · rename_i hfb
        exact hcredit.resolve_left hfb
    · cases h

/-- The run closes or stays as it is: nothing else of the port changes in a pass (R67, R70). -/
theorem Port.pass_port (P : Port) : P.pass.1 = P ∨ P.pass.1 = { P with run := none } := by
  unfold Port.pass
  split
  · exact .inl rfl
  · split
    · exact .inl rfl
    · exact .inr rfl

theorem Port.pass_selects {P Q : Port} {x : Selection} (h : P.pass = (Q, some x)) : Q.Selects x := by
  unfold Port.pass at h
  split at h
  · rename_i y hy
    cases h
    exact Port.scanStep_selects hy
  · split at h
    · rename_i y hy
      cases h
      exact Port.runStep_selects hy
    · simp only [Prod.mk.injEq] at h
      obtain ⟨rfl, h⟩ := h
      refine Port.selects_congr (P := P) rfl ?_
      simp only [Port.laneSteps, Option.or_eq_some_iff] at h
      rcases h with h | ⟨_, h | ⟨_, h | ⟨_, h | ⟨_, h⟩⟩⟩⟩ <;> exact Port.scanStep_selects h

/-- A pass that yields nothing leaves the run CLOSED (R70). -/
theorem Port.pass_none {P Q : Port} (h : P.pass = (Q, none)) : Q = { P with run := none } := by
  unfold Port.pass at h
  split at h
  · cases h
  · split at h
    · cases h
    · exact (congrArg Prod.fst h).symm

/-- With no queued record a pass yields nothing. -/
theorem Port.pass_of_no_queue {P : Port} (h : ∀ c, (P.row c).queue = []) : P.pass.2 = none := by
  cases hx : P.pass.2 with
  | none => rfl
  | some x =>
    have hsel := Port.pass_selects (P := P) (Q := P.pass.1) (x := x) (Prod.ext rfl hx)
    refine absurd ?_ hsel.queue
    rcases Port.pass_port P with hp | hp <;> rw [hp] <;> exact h x.cls

/-! ## What an award does to its port -/

/-- The counter pair after the counter events of an award (R75). -/
def CounterPair.afterAward (y : CounterPair) (x : Selection) (b : BidRecord) : CounterPair :=
  let y := (y.count .awards (some b.cls) 1).count .awardBytes (some b.cls) b.length
  let y := y.count (match x.charge with | .floor => .floorAwards | .ceiling => .ceilingAwards) (some b.cls) 1
  if x.via = .run then y.count .runAwards (some b.cls) 1 else y

theorem Port.countAward_eq (P : Port) (x : Selection) (b : BidRecord) :
    P.countAward x b = { P with counters := P.counters.afterAward x b } := by
  unfold Port.countAward CounterPair.afterAward
  cases x.charge <;> dsimp only <;> split <;> rfl

/-- The port after an award, field by field (R71 to R73, R75, R76). -/
theorem Port.award_eq (P : Port) (x : Selection) (b : BidRecord) (rest : List BidRecord) (now : Stamp) :
    P.award x b rest now =
      { P.setRow x.cls (({ P.row x.cls with queue := rest } : Row).charge x.charge b.length) with
        awards := P.awards ++ [P.awardRecord x b now]
        pointers := x.movePointers P.pointers
        run := x.runAfter (P.row x.cls) b P.run
        counters := P.counters.afterAward x b } := by
  rw [Port.award, Port.countAward_eq]
  rfl

theorem Port.row_award (P : Port) (x : Selection) (b : BidRecord) (rest : List BidRecord) (now : Stamp) (c : ClassNo) :
    (P.award x b rest now).row c = if c = x.cls then
      ({ P.row x.cls with queue := rest } : Row).charge x.charge b.length else P.row c := by
  rw [Port.award_eq]
  exact Port.row_setRow P x.cls c _

@[simp] theorem Row.charge_contract (k : Charge) (n : Nat) (r : Row) : (r.charge k n).contract = r.contract := by
  cases k <;> rfl
@[simp] theorem Row.charge_queue (k : Charge) (n : Nat) (r : Row) : (r.charge k n).queue = r.queue := by
  cases k <;> rfl
@[simp] theorem Row.refund_contract (k : Charge) (n : Nat) (r : Row) : (r.refund k n).contract = r.contract := by
  cases k <;> rfl
@[simp] theorem Row.refund_queue (k : Charge) (n : Nat) (r : Row) : (r.refund k n).queue = r.queue := by
  cases k <;> rfl

/-! ## The induction over a selection opportunity -/

/-- An award that the ladder makes on a port: the port may award, and the selection is of the head of a row. -/
structure State.Awards (s : State) (p : PortNo) (x : Selection) (b : BidRecord) (rest : List BidRecord) : Prop where
  may : s.mayAward p = true
  selects : (s.port p).Selects x
  queue : ((s.port p).row x.cls).queue = b :: rest

theorem State.award_eq {s : State} {p : PortNo} {x : Selection} {b : BidRecord} {rest : List BidRecord}
    (h : ((s.port p).row x.cls).queue = b :: rest) :
    s.award p x = (s.setPort p ((s.port p).award x b rest s.timeBase)).tellAward p x b := by
  simp only [State.award, h]

/-- Whether a port may award is read from its mode, its grade, its award list, its window, and the log (R62). -/
theorem State.mayAward_congr {s t : State} {p : PortNo} (hmode : (t.port p).mode = (s.port p).mode)
    (hgrade : (t.port p).grade = (s.port p).grade) (hawards : (t.port p).awards.length = (s.port p).awards.length)
    (hsettings : (t.port p).settings = (s.port p).settings) (hlog : t.log = s.log) : t.mayAward p = s.mayAward p := by
  simp only [State.mayAward, hmode, hgrade, hawards, hsettings, hlog]

theorem State.mayAward_closeRun (s : State) (p q : PortNo) : (s.closeRun p).mayAward q = s.mayAward q := by
  have hport := s.port_mapPort p q (fun P => { P with run := none })
  refine State.mayAward_congr ?_ ?_ ?_ ?_ rfl <;> rw [State.closeRun, hport] <;> split <;> simp_all

/-- What closing a run and making an award keep, a selection opportunity keeps. -/
theorem ladderPasses_keeps {I : State → Prop} {p : PortNo} (hclose : ∀ s, I s → I (s.closeRun p))
    (haward : ∀ s x b rest, I s → s.Awards p x b rest → I (s.award p x)) (n : Nat) {s : State} (h : I s) :
    I (ladderPasses n p s) := by
  induction n generalizing s with
  | zero => exact h
  | succ n ih =>
    have hpass : I (s.setPort p (s.port p).pass.1) ∧ (s.setPort p (s.port p).pass.1).mayAward p = s.mayAward p := by
      rcases Port.pass_port (s.port p) with hp | hp <;> rw [hp]
      · rw [State.setPort_port]; exact ⟨h, rfl⟩
      · exact ⟨hclose s h, s.mayAward_closeRun p p⟩
    unfold ladderPasses
    split
    · rename_i hmay
      split
      · rename_i P x hx
        rw [hx] at hpass
        have hsel : ((s.setPort p P).port p).Selects x := by
          rw [State.port_setPort_same]; exact Port.pass_selects hx
        obtain ⟨b, rest, hqueue⟩ := List.exists_cons_of_ne_nil hsel.queue
        exact ih (haward _ x b rest hpass.1 ⟨hpass.2.trans hmay, hsel, hqueue⟩)
      · rename_i P hx
        rw [hx] at hpass
        exact hpass.1
    · exact h

theorem State.ladder_keeps {I : State → Prop} {p : PortNo} (hclose : ∀ s, I s → I (s.closeRun p))
    (haward : ∀ s x b rest, I s → s.Awards p x b rest → I (s.award p x)) {s : State} (h : I s) : I (s.ladder p) :=
  ladderPasses_keeps hclose haward _ h

/-- What each opportunity of a port in REHEARSAL keeps, their sequence keeps (R163). -/
theorem State.rehearsalOpportunities_keeps {I : State → Prop} (hladder : ∀ s p, I s → I (s.ladder p)) {s : State}
    (h : I s) : I s.rehearsalOpportunities := by
  unfold State.rehearsalOpportunities
  induction ascending generalizing s with
  | nil => exact h
  | cons p ps ih =>
    rw [List.foldl_cons]
    apply ih
    split
    · exact hladder s p h
    · exact h

theorem State.afterFreeing_keeps {I : State → Prop} (hladder : ∀ s p, I s → I (s.ladder p)) (full : Bool) {s : State}
    (h : I s) : I (s.afterFreeing full) := by
  unfold State.afterFreeing
  split
  · exact State.rehearsalOpportunities_keeps hladder h
  · exact h

end Sys2Proof.Machine
end

section
/-! PROOFS. The application of a pending commit in closed form: class by class a port takes its staged contracts, and the
records of the withdrawn rows are declined in class and queue order (R14 to R18). -/

namespace Sys2Proof.Machine

/-! ## Declines and the update of their port -/

theorem returnRecord_setPort (s : State) (p : PortNo) (P : Port) (r : BidRecord) :
    (s.setPort p P).returnRecord r = (s.returnRecord r).setPort p P := by
  simp only [State.returnRecord, State.evaluatePause_eq]
  rfl

theorem declineRecord_setPort (s : State) (p : PortNo) (P : Port) (c : Cause) (r : BidRecord)
    (hmode : P.mode = (s.port p).mode) :
    State.declineRecord p c (s.setPort p P) r
      = (State.declineRecord p c s r).setPort p (P.count .declines (some r.cls) 1) := by
  have hcount : ∀ t : State, ((t.setPort p P).returnRecord r).count p .declines (some r.cls) 1
      = ((t.returnRecord r).count p .declines (some r.cls) 1).setPort p (P.count .declines (some r.cls) 1) := fun t => by
    simp [returnRecord_setPort, State.count, State.mapPort]
  unfold State.declineRecord
  dsimp only
  rw [State.port_setPort_same, hmode]
  split
  · exact hcount s
  · exact hcount (s.pushSwitch _)

/-- Declines read only the mode of their port, and write only its counters. -/
theorem declineRecords_setPort (s : State) (p : PortNo) (P : Port) (c : Cause) (rs : List BidRecord)
    (hmode : P.mode = (s.port p).mode) :
    (s.setPort p P).declineRecords p c rs
      = (s.declineRecords p c rs).setPort p { P with counters := P.counters.afterDeclines rs } := by
  induction rs generalizing s P with
  | nil => simp [State.declineRecords, CounterPair.afterDeclines_nil]
  | cons r rs ih =>
    have hmode' : (P.count .declines (some r.cls) 1).mode = ((State.declineRecord p c s r).port p).mode := by
      rw [State.port_declineRecord, if_pos rfl]; exact hmode
    rw [CounterPair.afterDeclines_cons]
    show (State.declineRecord p c (s.setPort p P) r).declineRecords p c rs = _
    rw [declineRecord_setPort s p P c r hmode]
    exact ih _ _ hmode'

theorem State.declineRecords_append (s : State) (p : PortNo) (c : Cause) (rs xs : List BidRecord) :
    s.declineRecords p c (rs ++ xs) = (s.declineRecords p c rs).declineRecords p c xs := List.foldl_append

theorem CounterPair.afterDeclines_append (x : CounterPair) (rs xs : List BidRecord) :
    x.afterDeclines (rs ++ xs) = (x.afterDeclines rs).afterDeclines xs := by
  induction rs generalizing x with
  | nil => rw [CounterPair.afterDeclines_nil]; rfl
  | cons r rs ih => rw [List.cons_append, CounterPair.afterDeclines_cons, CounterPair.afterDeclines_cons, ih]

/-! ## One class (R15 to R17) -/

/-- The application withdraws the row: it is valid, and its staged contract is not (R17). -/
def Port.withdraws (P : Port) (c : ClassNo) : Bool := (P.row c).contract.valid && !(P.stagedRow c).valid

/-- The row after the application of a staged contract: kept invalid or made valid (R15), updated (R16), withdrawn (R17). -/
def Row.applied (x : Contract) (r : Row) : Row :=
  if !r.contract.valid then { Row.fresh x with queue := r.queue } else if x.valid then r.update x else Row.fresh x

/-- The port after the application of one class, before the declines (R15 to R17). -/
def Port.applyClass (P : Port) (c : ClassNo) : Port :=
  let Q := P.setRow c ((P.row c).applied (P.stagedRow c))
  if P.withdraws c then Q.forgetClass c else Q

/-- The records that the application of the class declines (R17). -/
def Port.withdrawn (P : Port) (c : ClassNo) : List BidRecord := if P.withdraws c then (P.row c).queue else []

theorem State.applyClass_eq (s : State) (p : PortNo) (c : ClassNo) :
    State.applyClass p s c = (s.setPort p ((s.port p).applyClass c)).declineRecords p .allotmentWithdrawn
      ((s.port p).withdrawn c) := by
  unfold State.applyClass Port.applyClass Port.withdrawn Port.withdraws Row.applied
  dsimp only
  cases hr : ((s.port p).row c).contract.valid
  · simp [State.declineRecords]
  · cases hx : ((s.port p).stagedRow c).valid <;> simp [State.declineRecords]

@[simp] theorem Port.applyClass_mode (P : Port) (c : ClassNo) : (P.applyClass c).mode = P.mode := by
  unfold Port.applyClass; dsimp only; split <;> rfl

/-- The counters play no part in the application of a class. -/
theorem Port.applyClass_counters (P : Port) (c : ClassNo) (x : CounterPair) :
    ({ P with counters := x } : Port).applyClass c = { P.applyClass c with counters := x } := by
  unfold Port.applyClass
  show (if P.withdraws c then _ else _) = _
  dsimp only
  split <;> rfl

@[simp] theorem Port.applyClass_stagedRow (P : Port) (c d : ClassNo) : (P.applyClass c).stagedRow d = P.stagedRow d := by
  unfold Port.applyClass; dsimp only; split <;> rfl

theorem Port.row_applyClass (P : Port) (c d : ClassNo) :
    (P.applyClass c).row d = if d = c then (P.row c).applied (P.stagedRow c) else P.row d := by
  have hrow := P.row_setRow c d ((P.row c).applied (P.stagedRow c))
  unfold Port.applyClass
  dsimp only
  split
  · exact hrow
  · exact hrow

theorem Port.withdraws_applyClass (P : Port) {c d : ClassNo} (h : d ≠ c) :
    (P.applyClass c).withdraws d = P.withdraws d := by
  rw [Port.withdraws, Port.row_applyClass, if_neg h, Port.applyClass_stagedRow]; rfl

theorem Port.withdrawn_applyClass (P : Port) {c d : ClassNo} (h : d ≠ c) :
    (P.applyClass c).withdrawn d = P.withdrawn d := by
  rw [Port.withdrawn, Port.withdraws_applyClass P h, Port.row_applyClass, if_neg h]; rfl

/-! ## All classes (R14) -/

/-- The port after the application of the classes of a list, before the declines. -/
def Port.appliedTo (P : Port) (cs : List ClassNo) : Port := cs.foldl Port.applyClass P

@[simp] theorem Port.appliedTo_mode (P : Port) (cs : List ClassNo) : (P.appliedTo cs).mode = P.mode := by
  induction cs generalizing P with
  | nil => rfl
  | cons c cs ih => exact (ih (P.applyClass c)).trans (P.applyClass_mode c)

theorem Port.appliedTo_counters (P : Port) (cs : List ClassNo) (x : CounterPair) :
    ({ P with counters := x } : Port).appliedTo cs = { P.appliedTo cs with counters := x } := by
  induction cs generalizing P with
  | nil => rfl
  | cons c cs ih =>
    show (Port.applyClass { P with counters := x } c).appliedTo cs = _
    rw [Port.applyClass_counters, ih]; rfl

theorem Port.appliedTo_counters_same (P : Port) (cs : List ClassNo) : (P.appliedTo cs).counters = P.counters := by
  induction cs generalizing P with
  | nil => rfl
  | cons c cs ih =>
    refine (ih (P.applyClass c)).trans ?_
    unfold Port.applyClass; dsimp only; split <;> rfl

/-- The classes are applied to the port one after another, and the withdrawn records are declined in their order. -/
theorem State.foldl_applyClass (s : State) (p : PortNo) (cs : List ClassNo) (hnodup : cs.Nodup) :
    cs.foldl (State.applyClass p) s
      = (s.setPort p ((s.port p).appliedTo cs)).declineRecords p .allotmentWithdrawn
          (cs.flatMap (s.port p).withdrawn) := by
  induction cs generalizing s with
  | nil => simp [State.declineRecords, Port.appliedTo]
  | cons c cs ih =>
    obtain ⟨hc, hnodup⟩ := List.nodup_cons.mp hnodup
    have hrest : cs.flatMap ((s.port p).applyClass c).withdrawn = cs.flatMap (s.port p).withdrawn :=
      List.flatMap_congr fun d hd => Port.withdrawn_applyClass _ (fun h => hc (h ▸ hd))
    have hcons : (s.port p).appliedTo (c :: cs) = ((s.port p).applyClass c).appliedTo cs := rfl
    have hsame : ∀ x, ({ (s.port p).applyClass c with counters := x } : Port).withdrawn
        = ((s.port p).applyClass c).withdrawn := fun x => rfl
    have hdeclined := State.port_declineRecords (s.setPort p ((s.port p).applyClass c)) p p .allotmentWithdrawn
      ((s.port p).withdrawn c)
    rw [if_pos rfl, State.port_setPort_same] at hdeclined
    rw [List.foldl_cons, ih _ hnodup, State.applyClass_eq, hdeclined, Port.appliedTo_counters, hsame, hrest,
      List.flatMap_cons, State.declineRecords_append, hcons]
    congr 1
    have hmove := declineRecords_setPort (s.setPort p ((s.port p).applyClass c)) p
      (((s.port p).applyClass c).appliedTo cs) .allotmentWithdrawn ((s.port p).withdrawn c) (by simp)
    rw [State.setPort_setPort] at hmove
    rw [hmove]
    rw [Port.appliedTo_counters_same]

/-- Each class is applied once. -/
theorem Port.row_appliedTo (P : Port) (cs : List ClassNo) (hnodup : cs.Nodup) (d : ClassNo) :
    (P.appliedTo cs).row d = if d ∈ cs then (P.row d).applied (P.stagedRow d) else P.row d := by
  induction cs generalizing P with
  | nil => rfl
  | cons c cs ih =>
    obtain ⟨hc, hnodup⟩ := List.nodup_cons.mp hnodup
    refine (ih (P.applyClass c) hnodup).trans ?_
    rw [Port.row_applyClass, Port.applyClass_stagedRow]
    by_cases h : d = c
    · subst h; simp [hc]
    · simp [h]

/-- The award record after the application: without its refundable mark where its row was withdrawn (R17 step 2). -/
def AwardRecord.unmarkedBy (w : ClassNo → Bool) (a : AwardRecord) : AwardRecord :=
  if w a.bid.cls then { a with refundable := false } else a

@[simp] theorem AwardRecord.unmarkedBy_bid (w : ClassNo → Bool) (a : AwardRecord) : (a.unmarkedBy w).bid = a.bid := by
  unfold AwardRecord.unmarkedBy; split <;> rfl

theorem AwardRecord.unmarkedBy_unmarkedBy (v w : ClassNo → Bool) (a : AwardRecord) :
    (a.unmarkedBy v).unmarkedBy w = a.unmarkedBy (fun c => v c || w c) := by
  have hbid := a.unmarkedBy_bid v
  rw [AwardRecord.unmarkedBy, hbid]
  simp only [AwardRecord.unmarkedBy]
  by_cases hv : v a.bid.cls = true <;> by_cases hw : w a.bid.cls = true <;> simp [hv, hw]

/-- The run record after the application: CLOSED where its row was withdrawn (R17 step 3). -/
def runKeptBy (w : ClassNo → Bool) (x : Option Run) : Option Run := x.filter fun x => !w x.cls

theorem runKeptBy_runKeptBy (v w : ClassNo → Bool) (x : Option Run) :
    runKeptBy w (runKeptBy v x) = runKeptBy (fun c => v c || w c) x := by
  cases x with
  | none => rfl
  | some x => cases hv : v x.cls <;> simp [runKeptBy, Option.filter, hv]

/-- The classes of the list that the application withdraws. -/
def Port.withdrawsAmong (P : Port) (cs : List ClassNo) (d : ClassNo) : Bool := decide (d ∈ cs) && P.withdraws d

theorem Port.withdrawsAmong_cons (P : Port) {c : ClassNo} {cs : List ClassNo} (hc : c ∉ cs) :
    (fun d => P.withdrawsAmong [c] d || (P.applyClass c).withdrawsAmong cs d) = P.withdrawsAmong (c :: cs) := by
  funext d
  by_cases h : d = c
  · subst h; simp [Port.withdrawsAmong, hc]
  · simp [Port.withdrawsAmong, h, Port.withdraws_applyClass P h]

theorem Port.applyClass_awards (P : Port) (c : ClassNo) :
    (P.applyClass c).awards = P.awards.map (AwardRecord.unmarkedBy (P.withdrawsAmong [c])) := by
  have hmark : AwardRecord.unmarkedBy (P.withdrawsAmong [c]) = fun a =>
      if P.withdraws c = true ∧ a.bid.cls = c then { a with refundable := false } else a := funext fun a => by
    by_cases ha : a.bid.cls = c <;> simp [AwardRecord.unmarkedBy, Port.withdrawsAmong, ha]
  rw [hmark]
  unfold Port.applyClass
  dsimp only
  split
  · rename_i h
    simp [Port.forgetClass, Port.setRow, h]
  · rename_i h
    simp [Port.setRow, h]

theorem Port.applyClass_run (P : Port) (c : ClassNo) :
    (P.applyClass c).run = runKeptBy (P.withdrawsAmong [c]) P.run := by
  unfold Port.applyClass
  dsimp only
  cases hrun : P.run with
  | none => split <;> simp [Port.forgetClass, Port.setRow, hrun, runKeptBy]
  | some x =>
    by_cases hx : x.cls = c
    · subst hx
      split <;> rename_i h <;> simp [Port.forgetClass, Port.setRow, hrun, runKeptBy, Port.withdrawsAmong, h, Option.filter]
    · have hne : (x.cls != c) = true := by simp [hx]
      split <;> simp [Port.forgetClass, Port.setRow, hrun, runKeptBy, Port.withdrawsAmong, hx, Option.filter, hne]

theorem Port.appliedTo_awards (P : Port) {cs : List ClassNo} (hnodup : cs.Nodup) :
    (P.appliedTo cs).awards = P.awards.map (AwardRecord.unmarkedBy (P.withdrawsAmong cs)) := by
  induction cs generalizing P with
  | nil =>
    have hmark : AwardRecord.unmarkedBy (P.withdrawsAmong []) = id := rfl
    rw [hmark, List.map_id]; rfl
  | cons c cs ih =>
    obtain ⟨hc, hnodup⟩ := List.nodup_cons.mp hnodup
    refine (ih (P.applyClass c) hnodup).trans ?_
    rw [Port.applyClass_awards, List.map_map]
    refine List.map_congr_left fun a _ => ?_
    rw [Function.comp_apply, AwardRecord.unmarkedBy_unmarkedBy, Port.withdrawsAmong_cons P hc]

theorem Port.appliedTo_run (P : Port) {cs : List ClassNo} (hnodup : cs.Nodup) :
    (P.appliedTo cs).run = runKeptBy (P.withdrawsAmong cs) P.run := by
  induction cs generalizing P with
  | nil => cases hrun : P.run <;> simp [Port.appliedTo, runKeptBy, Port.withdrawsAmong, hrun, Option.filter]
  | cons c cs ih =>
    obtain ⟨hc, hnodup⟩ := List.nodup_cons.mp hnodup
    refine (ih (P.applyClass c) hnodup).trans ?_
    rw [Port.applyClass_run, runKeptBy_runKeptBy, Port.withdrawsAmong_cons P hc]

/-- Rows, award marks and the run are all that differs. -/
def Port.sameOutsideClasses (P Q : Port) : Prop := Q = { P with active := Q.active, awards := Q.awards, run := Q.run }

theorem Port.sameOutsideClasses_trans {P Q R : Port} (h : P.sameOutsideClasses Q) (k : Q.sameOutsideClasses R) :
    P.sameOutsideClasses R := by
  unfold Port.sameOutsideClasses at *
  rw [k, h]

theorem Port.appliedTo_frame (P : Port) (cs : List ClassNo) : P.sameOutsideClasses (P.appliedTo cs) := by
  induction cs generalizing P with
  | nil => rfl
  | cons c cs ih =>
    have hone : P.sameOutsideClasses (P.applyClass c) := by
      unfold Port.applyClass; dsimp only; split <;> rfl
    exact Port.sameOutsideClasses_trans hone (ih (P.applyClass c))

/-! ## The whole application (R14, R18) -/

theorem ascending_nodup : ascending.Nodup := by decide

/-- The port with its shares recomputed and its commit APPLIED (R18). -/
def Port.completed (Q : Port) : Port := { Q.recomputeShares Q.shareGrade with commitStatus := .applied }

/-- The port after the application of its pending commit, but for the counter events of the declines (R14 to R18). -/
def Port.committed (P : Port) : Port := (P.appliedTo ascending).completed

/-- The records of the withdrawn rows, in class and queue order (R17). -/
def Port.withdrawnRecords (P : Port) : List BidRecord := ascending.flatMap P.withdrawn

theorem Port.completed_counters (Q : Port) (x : CounterPair) :
    ({ Q with counters := x } : Port).completed = { Q.completed with counters := x } := rfl

theorem State.completeCommit_eq (s : State) (p : PortNo) :
    s.completeCommit p = { s.setPort p (s.port p).completed with
      groups := leaveGroup s.groups p
      mg := if lastOfGroup s.groups p then s.mg.afterCause .commit else s.mg } := by
  unfold State.completeCommit
  dsimp only
  rw [State.noticeCause_eq]
  split <;> rfl

/-- An application in closed form: the declines, the port, the groups, and the cause of the COMMIT notice. -/
theorem State.applyCommit_eq {s : State} {p : PortNo} (h : (s.port p).commitStatus = .pending) :
    s.applyCommit p =
      let u := s.declineRecords p .allotmentWithdrawn (s.port p).withdrawnRecords
      { u.setPort p { (s.port p).committed with
            counters := (s.port p).counters.afterDeclines (s.port p).withdrawnRecords } with
        groups := leaveGroup s.groups p
        mg := if lastOfGroup s.groups p then u.mg.afterCause .commit else u.mg } := by
  have hfold := s.foldl_applyClass p ascending ascending_nodup
  have hmove := declineRecords_setPort s p ((s.port p).appliedTo ascending) .allotmentWithdrawn
    (s.port p).withdrawnRecords (by simp)
  rw [Port.appliedTo_counters_same] at hmove
  rw [State.applyCommit, if_pos h, hfold]
  rw [show ascending.flatMap (s.port p).withdrawn = (s.port p).withdrawnRecords from rfl, hmove, State.completeCommit_eq,
    State.port_setPort_same, State.setPort_setPort, Port.completed_counters, State.setPort_groups,
    State.declineRecords_groups]
  rfl

end Sys2Proof.Machine
end

section
/-! PROOFS. What a step can do to one port: the changes of the bid state, read at a port, are the changes listed in
`PortChange`. A law of each port by itself is kept by every step once each of these keeps it. -/

namespace Sys2Proof.Machine

/-! ## The changes of a port -/

/-- What the command `c` can do to the port of number `p`, one change at a time. -/
inductive PortChange (c : Instr) (p : PortNo) : Port → Port → Prop
  | elapse (P n) : PortChange c p P (P.elapse n)
  | counters (P) (x : CounterPair) : PortChange c p P { P with counters := x }
  | award (P x b rest now) (hwindow : P.awards.length < P.settings.window) (hsel : P.Selects x)
      (hqueue : (P.row x.cls).queue = b :: rest) : PortChange c p P (P.award x b rest now)
  | closeRun (P : Port) : PortChange c p P { P with run := none }
  | accept (P k) (b : BidRecord) (hvalid : (P.row k).contract.valid = true)
      (hroom : (P.row k).queue.length < (P.row k).contract.queueLimit) (hnew : P.tagInUse b.tag = false)
      (hlength : 1 ≤ b.length ∧ b.length ≤ 1048576) :
      PortChange c p P (P.mapRow k (fun r => { r with queue := r.queue ++ [b] }))
  | removeQueued (P k tag) : PortChange c p P (P.removeQueued k tag)
  | removeAward (P tag) : PortChange c p P (P.removeAward tag)
  | refund (P k charge n) : PortChange c p P (P.mapRow k (Row.refund charge n))
  | raise (P : Port) (g) (hc : c = .grade p g) (hg : g ≠ .down) :
      PortChange c p P { ({ P with grade := g } : Port).recomputeShares g with holdDownTimer := none, stranded := false }
  | fall (P : Port) (hc : c = .grade p .down) : PortChange c p P { P with grade := .down }
  | fallTimed (P : Port) (n) (hc : c = .grade p .down) (hbefore : P.grade ≠ .down) :
      PortChange c p P { P with grade := .down, holdDownTimer := some n }
  | fallStranded (P : Port) (hc : c = .grade p .down) (hbefore : P.grade ≠ .down) :
      PortChange c p P { P with grade := .down, stranded := true }
  | strand (P : Port) (htimer : P.holdDownTimer ≠ none) :
      PortChange c p P { P with holdDownTimer := none, stranded := true }
  | clearQueues (P) : PortChange c p P P.clearQueues
  | drop (P) : PortChange c p P P.dropped
  | commit (P) (hc : c = .accrualTimerExpiry p) (hpending : P.commitStatus = .pending) : PortChange c p P P.committed
  | accrue (P) : PortChange c p P P.accrue
  | reload (P) : PortChange c p P P.reload
  | settings (P : Port) (pb b) (x : PortSettings) (hc : c = .portSet pb b) (hw : 1 ≤ x.window ∧ x.window ≤ 8) :
      PortChange c p P { P with settings := x }
  | mode (P : Port) (pb mb) (m : Mode) (hc : c = .portMode pb mb) : PortChange c p P { P with mode := m }
  | stage (P k) (x : Contract) (hfree : P.commitStatus ≠ .pending) (hx : x.InRange)
      (hlock : (P.lockCell k).brokenBy x = false) : PortChange c p P (P.setStaged k x)
  | pend (P : Port) (hok : ¬ P.refusesCommit) : PortChange c p P { P with commitStatus := .pending }
  | abort (P : Port) : PortChange c p P { P with commitStatus := .aborted }
  | lock (P k) (pb cb) (hc : c = .lock pb cb) (hfree : P.commitStatus ≠ .pending)
      (hvalid : (P.row k).contract.valid = true) (hprot : (P.row k).contract.isProtected = true) :
      PortChange c p P (P.setLock k { locked := true, floor := (P.row k).contract.floorShare })
  | warm (P) : PortChange c p P P.warm

/-- A chain of changes of a port. -/
@[reducible] def PortChanges (c : Instr) (p : PortNo) : Port → Port → Prop := Relation.ReflTransGen (PortChange c p)

/-- Each port of the second state comes from that of the first by a chain of changes. -/
def State.PortsChange (c : Instr) (s t : State) : Prop := ∀ p, PortChanges c p (s.port p) (t.port p)

section
variable {c : Instr}

theorem portsChange_refl (s : State) : s.PortsChange c s := fun _ => .refl

theorem State.PortsChange.trans {s t u : State} (h : s.PortsChange c t) (k : t.PortsChange c u) : s.PortsChange c u :=
  fun p => (h p).trans (k p)

theorem portsChange_of_ports {s t : State} (h : t.ports = s.ports) : s.PortsChange c t := fun p => by
  rw [State.port_congr h p]

/-- An update of one port is a chain of changes of that port. -/
theorem portsChange_of_port {s t : State} {p : PortNo} {P : Port} (h : PortChanges c p (s.port p) P)
    (ht : ∀ q, t.port q = if q = p then P else s.port q) : s.PortsChange c t := fun q => by
  rw [ht]
  split
  · subst_vars; exact h
  · exact .refl

theorem portsChange_setPort {s : State} {p : PortNo} {P : Port} (h : PortChanges c p (s.port p) P) :
    s.PortsChange c (s.setPort p P) := portsChange_of_port h fun q => s.port_setPort p q P

theorem portsChange_mapPort {s : State} {p : PortNo} {f : Port → Port} (h : PortChanges c p (s.port p) (f (s.port p))) :
    s.PortsChange c (s.mapPort p f) := portsChange_setPort h

/-! ## The shared operations -/

theorem portsChange_count (s : State) (p : PortNo) (ev : CounterEvent) (k : Option ClassNo) (n : Nat) :
    s.PortsChange c (s.count p ev k n) := portsChange_mapPort (.single (.counters _ _))

theorem portsChange_ladder (s : State) (p : PortNo) : s.PortsChange c (s.ladder p) := by
  refine State.ladder_keeps (I := fun t => s.PortsChange c t) (fun t h => ?_) (fun t x b rest h haward => ?_)
    (portsChange_refl s)
  · exact h.trans (portsChange_mapPort (.single (.closeRun _)))
  · have hwindow : (t.port p).awards.length < (t.port p).settings.window := by
      have := haward.may
      simp only [State.mayAward, Bool.and_eq_true, decide_eq_true_eq] at this
      exact this.1.2
    rw [State.award_eq haward.queue]
    exact h.trans ((portsChange_setPort (.single (.award _ x b rest t.timeBase hwindow haward.selects haward.queue))).trans
      (portsChange_of_ports (by simp)))

theorem portsChange_afterFreeing (s : State) (full : Bool) : s.PortsChange c (s.afterFreeing full) :=
  State.afterFreeing_keeps (I := fun t => s.PortsChange c t) (fun t p h => h.trans (portsChange_ladder t p)) full
    (portsChange_refl s)

theorem portsChange_declineQueues (s : State) (p : PortNo) (cause : Cause) :
    s.PortsChange c (s.declineQueues p cause) := by
  refine portsChange_of_port (P := (s.port p).declined) ?_ fun q => s.port_declineQueues p q cause
  exact (Relation.ReflTransGen.single (.clearQueues _)).tail (.counters _ _)

theorem portsChange_dropRecords (s : State) (p : PortNo) : s.PortsChange c (s.dropRecords p) :=
  portsChange_of_port (.single (.drop _)) fun q => s.port_dropRecords p q

theorem portsChange_closeRun (s : State) (p : PortNo) : s.PortsChange c (s.closeRun p) :=
  portsChange_mapPort (.single (.closeRun _))

/-! ## Bids and finishes -/

/-- What checks 4 to 9 of Table 3.4 say of an accepted bid (R51). -/
theorem checkFrom2_accept {s : State} {b : BidBody} {e : EntryNo} (h : s.checkFrom2 b = .accept e) :
    let r := (s.port b.port).row (s.source e).cls
    r.contract.valid = true ∧ r.queue.length < r.contract.queueLimit ∧ (s.port b.port).tagInUse b.tag = false
      ∧ (s.source e).outstanding < (s.source e).limit ∧ 0 < s.pool.free := by
  have key : ∀ d, s.checkWithEntry b d = .accept e →
      let r := (s.port b.port).row (s.source e).cls
      r.contract.valid = true ∧ r.queue.length < r.contract.queueLimit ∧ (s.port b.port).tagInUse b.tag = false
        ∧ (s.source e).outstanding < (s.source e).limit ∧ 0 < s.pool.free := fun d hd => by
    unfold State.checkWithEntry at hd
    simp only at hd
    by_cases hmuted : (s.source d).admission = .muted
    · rw [if_pos hmuted] at hd; cases hd
    rw [if_neg hmuted] at hd
    split at hd
    · cases hd
    rename_i hvalid
    split at hd
    · cases hd
    rename_i htag
    split at hd
    · cases hd
    rename_i hlimit
    split at hd
    · cases hd
    rename_i hroom
    split at hd
    · cases hd
    rename_i hfree
    cases hd
    exact ⟨by simpa using hvalid, Nat.lt_of_not_le hroom, by simpa using htag, Nat.lt_of_not_le hlimit,
      Nat.pos_of_ne_zero hfree⟩
  unfold State.checkFrom2 at h
  split at h
  · cases h
  · split at h
    · cases h
    · exact key _ h

theorem State.port_acceptBid (s : State) (b : BidBody) (e : EntryNo) (q : PortNo) :
    (s.acceptBid b e).port q = if q = b.port then
      ((s.port b.port).mapRow (s.source e).cls (fun r => { r with queue := r.queue ++ [s.bidRecord b e] })).count
        .arrivals (some (s.source e).cls) 1 else s.port q := by
  have hports : (s.acceptBid b e).port q = (s.mapPort b.port (fun P =>
      (P.mapRow (s.source e).cls (fun r => { r with queue := r.queue ++ [s.bidRecord b e] })).count
        .arrivals (some (s.source e).cls) 1)).port q := State.port_congr (by simp [State.acceptBid]) q
  rw [hports, State.port_mapPort]

/-- A bid's length is 1..1,048,576 (R169). -/
theorem bidRecord_length (s : State) (b : BidBody) (e : EntryNo) :
    1 ≤ (s.bidRecord b e).length ∧ (s.bidRecord b e).length ≤ 1048576 := by
  have := b.codedLength.isLt
  simp only [State.bidRecord, BidBody.length]
  omega

theorem portsChange_acceptBid (s : State) (b : BidBody) (e : EntryNo) (h : s.checkFrom2 b = .accept e) :
    s.PortsChange c (s.acceptBid b e) := by
  obtain ⟨hvalid, hroom, hnew, _⟩ := checkFrom2_accept h
  refine portsChange_of_port ?_ fun q => s.port_acceptBid b e q
  exact (Relation.ReflTransGen.single (.accept _ _ _ hvalid hroom hnew (bidRecord_length s b e))).tail (.counters _ _)

/-- The port after a finish, up to its opportunity (R86). -/
def Port.finished (P : Port) (a : AwardRecord) (moved : Nat) : Port :=
  let Q := P.removeAward a.bid.tag
  if 0 < a.refundDue moved then Q.mapRow a.bid.cls (Row.refund a.charge (a.refundDue moved)) else Q

theorem State.port_finishRecord (s : State) (p : PortNo) (a : AwardRecord) (moved : Nat) (q : PortNo) :
    (s.finishRecord p a moved).port q = if q = p then (s.port p).finished a moved else s.port q := by
  have hfree : ∀ t : State, (t.freeReserved p).ports = t.ports := fun t => by
    unfold State.freeReserved; split <;> rfl
  have hports : ∀ t : State, t.ports = s.ports →
      (((t.mapPort p (fun P => P.finished a moved)).freeReserved p).returnRecord a.bid).port q
        = if q = p then (s.port p).finished a moved else s.port q := fun t ht => by
    have hport : ∀ r, t.port r = s.port r := State.port_congr ht
    rw [State.port_congr (State.returnRecord_ports _ _), State.port_congr (hfree _), State.port_mapPort, hport, hport]
  unfold State.finishRecord
  dsimp only
  split
  · exact hports _ (by simp)
  · exact hports s rfl

theorem portsChange_finishRecord (s : State) (p : PortNo) (a : AwardRecord) (moved : Nat) :
    s.PortsChange c (s.finishRecord p a moved) := by
  refine portsChange_of_port ?_ fun q => s.port_finishRecord p a moved q
  unfold Port.finished
  dsimp only
  split
  · exact (Relation.ReflTransGen.single (.removeAward _ _)).tail (.refund _ _ _ _)
  · exact .single (.removeAward _ _)

/-- Up to its counter event and its opportunity, a lapse takes the record from the award list and no more (R90). -/
theorem portsChange_lapseRecord (s : State) (p : PortNo) (a : AwardRecord) : s.PortsChange c (s.lapseRecord p a) := by
  have htell : ∀ t : State, (t.tellLapse p a).ports = t.ports := fun t => by
    unfold State.tellLapse; split <;> simp
  unfold State.lapseRecord
  dsimp only
  refine State.PortsChange.trans ?_ ((portsChange_count _ _ _ _ _).trans (portsChange_ladder _ p))
  refine (portsChange_mapPort (p := p) (f := fun P => P.removeAward a.bid.tag) (.single (.removeAward _ _))).trans
    (portsChange_of_ports ?_)
  rw [State.reportFault_ports, htell, State.returnRecord_ports]

/-! ## Grades, modes and commits -/

theorem portsChange_gradeUp (s : State) (p : PortNo) (before g : Grade) (hc : c = .grade p g) (hg : g ≠ .down) :
    s.PortsChange c ((s.mapPort p (fun P => { P with grade := g })).gradeUp p before g) := by
  unfold State.gradeUp
  dsimp only
  rw [State.mapPort_mapPort]
  split
  · exact (portsChange_mapPort (.single (.raise _ g hc hg))).trans (portsChange_ladder _ p)
  · exact portsChange_mapPort (.single (.raise _ g hc hg))

theorem portsChange_gradeFall (s : State) (p : PortNo) (hc : c = .grade p .down) (hbefore : (s.port p).grade ≠ .down) :
    s.PortsChange c ((s.mapPort p (fun P => { P with grade := .down })).gradeFall p) := by
  have hstrand : (s.mapPort p (fun P => { P with grade := .down })).strand p
      = ((((s.mapPort p (fun P => { P with grade := .down, stranded := true })).declineQueues p .portDown).closeRun
          p).reportFault { s.plainFault .portStranded with port := some p }).strandCause p := by
    unfold State.strand
    rw [State.mapPort_mapPort]
    simp [State.plainFault, State.closeRun]
  unfold State.gradeFall
  dsimp only
  split
  · rw [hstrand]
    refine ((portsChange_mapPort (p := p) (f := fun P => { P with grade := .down, stranded := true })
      (.single (.fallStranded _ hc hbefore))).trans
      (portsChange_declineQueues _ p .portDown)).trans ((portsChange_closeRun _ p).trans (portsChange_of_ports ?_))
    simp
  · rw [State.mapPort_mapPort]
    exact portsChange_mapPort (.single (.fallTimed _ _ hc hbefore))

theorem portsChange_strandExpiry (s : State) (p : PortNo) (htimer : (s.port p).holdDownTimer ≠ none) :
    s.PortsChange c ((s.mapPort p (fun P => { P with holdDownTimer := none })).strand p) := by
  unfold State.strand
  rw [State.mapPort_mapPort]
  refine ((portsChange_mapPort (p := p) (f := fun P => { P with holdDownTimer := none, stranded := true })
    (.single (.strand _ htimer))).trans
    (portsChange_declineQueues _ p .portDown)).trans ((portsChange_closeRun _ p).trans (portsChange_of_ports ?_))
  simp

theorem portsChange_setMode (s : State) (p : PortNo) (m : Mode) {pb mb : Byte} (hc : c = .portMode pb mb) :
    s.PortsChange c (s.setMode p m) := portsChange_mapPort (.single (.mode _ pb mb m hc))

theorem portsChange_changeMode (s : State) (p : PortNo) (m : Mode) {pb mb : Byte} (hc : c = .portMode pb mb) :
    s.PortsChange c (s.changeMode p m) := by
  have hoff : s.PortsChange c (((s.declineQueues p .portOff).closeRun p).setMode p .off) :=
    ((portsChange_declineQueues s p .portOff).trans (portsChange_closeRun _ p)).trans (portsChange_setMode _ p .off hc)
  unfold State.changeMode
  split
  · exact portsChange_refl s
  · have hports : ∀ n, ((s.dropRecords p).setReserved n).ports = (s.dropRecords p).ports := fun _ => rfl
    exact ((portsChange_dropRecords s p).trans (portsChange_of_ports (hports _))).trans (portsChange_setMode _ p _ hc)
  · exact hoff
  · exact hoff
  · exact portsChange_setMode s p _ hc

theorem portsChange_acceptMode (s : State) (p : PortNo) (m : Mode) {pb mb : Byte} (hc : c = .portMode pb mb) :
    s.PortsChange c (s.acceptMode p m) := by
  unfold State.acceptMode
  dsimp only
  refine State.PortsChange.trans ?_ (portsChange_afterFreeing _ _)
  split
  · exact (portsChange_changeMode s p m hc).trans (portsChange_ladder _ p)
  · exact portsChange_changeMode s p m hc

/-- The port after the application of its pending commit (R14 to R18). -/
theorem State.port_applyCommit {s : State} {p : PortNo} (h : (s.port p).commitStatus = .pending) (q : PortNo) :
    (s.applyCommit p).port q = if q = p then
      { (s.port p).committed with counters := (s.port p).counters.afterDeclines (s.port p).withdrawnRecords }
      else s.port q := by
  rw [State.applyCommit_eq h]
  show State.port (State.setPort _ _ _) q = _
  rw [State.port_setPort, State.port_declineRecords]
  split <;> rfl

theorem State.applyCommit_of_not_pending {s : State} {p : PortNo} (h : (s.port p).commitStatus ≠ .pending) :
    s.applyCommit p = s := if_neg h

theorem portsChange_accrualExpiry (s : State) (p : PortNo) (hc : c = .accrualTimerExpiry p) :
    s.PortsChange c (s.accrualExpiry p) := by
  have hcommit : s.PortsChange c (s.applyCommit p) := by
    by_cases h : (s.port p).commitStatus = .pending
    · refine portsChange_of_port ?_ (State.port_applyCommit h)
      exact (Relation.ReflTransGen.single (.commit _ hc h)).tail (.counters _ _)
    · rw [State.applyCommit_of_not_pending h]
      exact portsChange_refl s
  refine (hcommit.trans (portsChange_mapPort ?_)).trans (portsChange_ladder _ p)
  exact (Relation.ReflTransGen.single (.accrue _)).tail (.reload _)

/-- An accepted COMMIT finds no failing check on a port that it names (R11). -/
theorem not_refusesCommit_of_accepted {s : State} {m : PortSet} (h : s.commitFailure m = none) {p : PortNo}
    (hp : names m p = true) : ¬ (s.port p).refusesCommit := by
  intro hrefuses
  have hnone : s.commitRefusal p = none :=
    List.findSome?_eq_none_iff.mp h p (List.mem_filter.mpr ⟨mem_ascending p, hp⟩)
  unfold State.commitRefusal at hnone
  dsimp only at hnone
  split at hnone
  · cases hnone
  · rename_i hfree
    split at hnone
    · cases hnone
    · rename_i hsum
      obtain hpending | hover | ⟨k, hk⟩ := hrefuses
      · exact hfree hpending
      · exact hsum hover
      · have := List.find?_eq_none.mp (Option.map_eq_none_iff.mp hnone) k (mem_ascending k)
        exact this hk

theorem portsChange_acceptCommit (s : State) (m : PortSet) (h : s.commitFailure m = none) :
    s.PortsChange c (s.acceptCommit m) := fun p => by
  rw [State.port_acceptCommit]
  split
  · rename_i hp
    exact .single (.pend _ (not_refusesCommit_of_accepted h hp))
  · exact .refl

theorem State.port_abortPort (s : State) (p q : PortNo) :
    (s.abortPort p).port q = if q = p ∧ (s.port p).commitStatus = .pending then
      { s.port p with commitStatus := .aborted } else s.port q := by
  unfold State.abortPort
  by_cases h : (s.port p).commitStatus = .pending
  · rw [if_pos h]
    show State.port (s.mapPort p (fun P => { P with commitStatus := .aborted })) q = _
    rw [State.port_mapPort]
    simp [h]
  · simp [h]

theorem portsChange_abortPort (s : State) (p : PortNo) : s.PortsChange c (s.abortPort p) := fun q => by
  rw [State.port_abortPort]
  split
  · rename_i h
    obtain ⟨rfl, _⟩ := h
    exact .single (.abort _)
  · exact .refl

theorem portsChange_takeForget (s : State) : s.PortsChange c s.takeForget := by
  have hfold : ∀ (ps : List PortNo) (t : State), t.PortsChange c
      (ps.foldl (fun s p => if (s.port p).mode = .rehearsal then s else s.dropRecords p) t) := fun ps => by
    induction ps with
    | nil => exact portsChange_refl
    | cons p ps ih =>
      intro t
      refine State.PortsChange.trans ?_ (ih _)
      dsimp only
      split
      · exact portsChange_refl t
      · exact portsChange_dropRecords t p
  unfold State.takeForget
  exact (hfold ascending s).trans (portsChange_of_ports (State.pushSwitch_ports _ _))

@[simp] theorem State.port_warmValues (s : State) (p : PortNo) : s.warmValues.port p = (s.port p).warm := by
  simp [State.port, State.warmValues]

/-! ## The inversion at a port -/

/-- A change of the bid state is, at each port, a chain of the listed changes of a port. -/
theorem portsChange_of_bidChange {s t : State} (h : BidChange c s t) : s.PortsChange c t := by
  cases h with
  | same h => exact portsChange_of_ports h.ports
  | elapse n => exact fun p => by rw [State.port_elapse]; exact .single (.elapse _ n)
  | counters p f => exact portsChange_mapPort (.single (.counters _ _))
  | accept b e hoff hcheck => exact (portsChange_acceptBid s b e hcheck).trans (portsChange_ladder _ _)
  | withdraw p k tag b hfind =>
    exact (portsChange_setPort (p := p) (.single (.removeQueued _ k tag))).trans (portsChange_of_ports (by simp))
  | finish p a moved hmode ha => exact (portsChange_finishRecord s p a moved).trans (portsChange_ladder _ p)
  | testFinish p a moved hmode ha =>
    refine (portsChange_finishRecord s p a moved).trans ?_
    unfold State.afterTestFinish
    split
    · exact State.rehearsalOpportunities_keeps (I := fun t => State.PortsChange c _ t)
        (fun t p h => h.trans (portsChange_ladder t p)) (portsChange_refl _)
    · exact portsChange_ladder _ p
  | lapse p a ha => exact portsChange_lapseRecord s p a
  | gradeUp p g hc hg => exact portsChange_gradeUp s p _ g hc hg
  | gradeStay p hc hbefore => exact portsChange_mapPort (.single (.fall _ hc))
  | gradeFall p hc hbefore => exact portsChange_gradeFall s p hc hbefore
  | strand p htimer => exact portsChange_strandExpiry s p htimer
  | forget => exact portsChange_takeForget s
  | accrual p hc => exact portsChange_accrualExpiry s p hc
  | closeRun p => exact portsChange_closeRun s p
  | settings p pb b x hc hw =>
    have hstored : s.PortsChange c (s.mapPort p (fun P => { P with settings := x })) :=
      portsChange_mapPort (.single (.settings _ pb b x hc hw))
    unfold State.storeSettings
    dsimp only
    split
    · exact hstored.trans (portsChange_ladder _ p)
    · exact hstored
  | mode p pb mb m hc hm => exact portsChange_acceptMode s p m hc
  | flush p => exact portsChange_declineQueues s p .flushed
  | source e eb b x hc hx hlimit => exact portsChange_of_ports rfl
  | stage p k x hfree hx hlock => exact portsChange_mapPort (.single (.stage _ k x hfree hx hlock))
  | commit m hok => exact portsChange_acceptCommit s m hok
  | abort p => exact portsChange_abortPort s p
  | lock p k pb cb hc hfree hvalid hprot =>
    exact portsChange_mapPort (.single (.lock _ k pb cb hc hfree hvalid hprot))
  | marks l h hlt hle => exact portsChange_of_ports (by simp)
  | readLog =>
    exact (portsChange_of_ports (t := { s with log := s.log.afterRead }) rfl).trans (portsChange_afterFreeing _ _)
  | warm =>
    refine State.PortsChange.trans (t := s.warmValues) (fun p => ?_) (portsChange_afterFreeing _ _)
    rw [State.port_warmValues]
    exact .single (.warm _)

/-- What each change of a port keeps, a chain of changes keeps. -/
theorem PortChanges.keeps {p : PortNo} {Law : Port → Prop} (hchange : ∀ P Q, PortChange c p P Q → Law P → Law Q)
    {P Q : Port} (h : PortChanges c p P Q) (hP : Law P) : Law Q := by
  induction h with
  | refl => exact hP
  | tail _ h ih => exact hchange _ _ h ih

end

@[simp] theorem State.port_reset (q : List Instr) (p : PortNo) : ({ State.reset with pending := q } : State).port p = .cold := by
  simp [State.port, State.reset]

/-- A law of each port is kept by every step if each change of a port keeps it and the cold port meets it. -/
theorem keptByStep_of_portChange {Law : Port → Prop}
    (hchange : ∀ (c : Instr) (p : PortNo) (P Q : Port), PortChange c p P Q → Law P → Law Q) (hcold : Law .cold) :
    KeptByStep (fun s => ∀ p, Law (s.port p)) :=
  keptByStep_of_bidChange (fun c _ _ h hs p => PortChanges.keeps (hchange c p) (portsChange_of_bidChange h p) (hs p))
    fun q p => by rw [State.port_reset]; exact hcold

end Sys2Proof.Machine
end

section
/-! PROOFS. The held records of a port under each change of it, and the uniqueness of their tags (O10). -/

namespace Sys2Proof.Machine

/-! ## The queued records by rows -/

theorem Port.queued_congr {P Q : Port} (h : ∀ c, (Q.row c).queue = (P.row c).queue) : Q.queued = P.queued :=
  List.flatMap_congr fun c _ => h c

theorem Port.records_congr {P Q : Port} (hqueue : ∀ c, (Q.row c).queue = (P.row c).queue)
    (hawards : Q.awards.map (fun a => a.bid) = P.awards.map (fun a => a.bid)) : Q.records = P.records := by
  rw [Port.records, Port.records, Port.queued_congr hqueue, hawards]

/-- The queue of a row stands at one place of the queued records, and an update of the row writes that place only. -/
theorem Port.queued_setRow (P : Port) (c : ClassNo) :
    ∃ before behind, P.queued = before ++ ((P.row c).queue ++ behind)
      ∧ ∀ r, (P.setRow c r).queued = before ++ (r.queue ++ behind) := by
  obtain ⟨before, behind, hsplit, -⟩ := ascending_split c
  have hnodup : (before ++ c :: behind).Nodup := hsplit ▸ ascending_nodup
  have hbefore : c ∉ before := fun h => (List.nodup_append.mp hnodup).2.2 c h c List.mem_cons_self rfl
  have hbehind : c ∉ behind := (List.nodup_cons.mp (List.nodup_append.mp hnodup).2.1).1
  have hrest : ∀ (r : Row) (l : List ClassNo), c ∉ l →
      l.flatMap (fun d => ((P.setRow c r).row d).queue) = l.flatMap (fun d => (P.row d).queue) := fun r l hl =>
    List.flatMap_congr fun d hd => by rw [Port.row_setRow, if_neg (fun h : d = c => hl (h ▸ hd))]
  refine ⟨before.flatMap (fun d => (P.row d).queue), behind.flatMap (fun d => (P.row d).queue), ?_, fun r => ?_⟩
  · rw [Port.queued, hsplit, List.flatMap_append, List.flatMap_cons]
  · rw [Port.queued, hsplit, List.flatMap_append, List.flatMap_cons, hrest r before hbefore, hrest r behind hbehind,
      Port.row_setRow_same]

theorem Port.queued_clearQueues (P : Port) : P.clearQueues.queued = [] := by
  simp [Port.queued]

/-! ## The records after each change -/

theorem Port.records_elapse (P : Port) (n : Nat) : (P.elapse n).records = P.records :=
  Port.records_congr (fun _ => rfl) (by simp [Port.elapse, Function.comp_def])

/-- An award moves its record within the records of the port (R72). -/
theorem Port.records_award (P : Port) {x : Selection} {b : BidRecord} {rest : List BidRecord} (now : Stamp)
    (hqueue : (P.row x.cls).queue = b :: rest) : (P.award x b rest now).records.Perm P.records := by
  obtain ⟨before, behind, hP, hset⟩ := P.queued_setRow x.cls
  have hqueued : (P.award x b rest now).queued = before ++ (rest ++ behind) := by
    rw [Port.award_eq]
    exact (hset _).trans (by rw [Row.charge_queue])
  have hawards : (P.award x b rest now).awards = P.awards ++ [P.awardRecord x b now] := by rw [Port.award_eq]
  rw [Port.records, Port.records, hqueued, hP, hqueue, hawards, List.map_append]
  show (before ++ (rest ++ behind) ++ (P.awards.map (fun a => a.bid) ++ [b])).Perm
    (before ++ (b :: rest ++ behind) ++ P.awards.map (fun a => a.bid))
  rw [← List.append_assoc _ _ [b]]
  refine (List.perm_append_comm (l₂ := [b])).trans ?_
  simp only [List.cons_append, List.nil_append, List.append_assoc]
  exact List.perm_middle.symm

theorem Port.records_accept (P : Port) (k : ClassNo) (b : BidRecord) :
    (P.mapRow k (fun r => { r with queue := r.queue ++ [b] })).records.Perm (b :: P.records) := by
  obtain ⟨before, behind, hP, hset⟩ := P.queued_setRow k
  have hqueued : (P.mapRow k (fun r => { r with queue := r.queue ++ [b] })).queued
      = before ++ ((P.row k).queue ++ [b] ++ behind) := hset _
  rw [Port.records, Port.records, hqueued, hP]
  show (before ++ ((P.row k).queue ++ [b] ++ behind) ++ P.awards.map (fun a => a.bid)).Perm _
  simp only [List.append_assoc, List.cons_append, List.nil_append]
  rw [← List.append_assoc, ← List.append_assoc before]
  exact List.perm_middle

/-- The record that a WITHDRAW finds leaves the records (R58). -/
theorem Port.records_removeQueued (P : Port) {k : ClassNo} {tag : Tag} {b : BidRecord}
    (hfind : (P.row k).queue.find? (fun x => x.tag == tag) = some b) :
    P.records.Perm (b :: (P.removeQueued k tag).records) := by
  obtain ⟨before, behind, hP, hset⟩ := P.queued_setRow k
  have hqueued : (P.removeQueued k tag).queued
      = before ++ ((P.row k).queue.eraseP (fun x => x.tag == tag) ++ behind) := hset _
  obtain ⟨hb, pre, post, hsplit, hpre⟩ := List.find?_eq_some_iff_append.mp hfind
  have herase : (P.row k).queue.eraseP (fun x => x.tag == tag) = pre ++ post := by
    rw [hsplit, List.eraseP_append_right _ (fun x hx => by simpa using hpre x hx)]
    simp [hb]
  rw [Port.records, Port.records, hqueued, herase, hP, hsplit]
  show (before ++ (pre ++ b :: post ++ behind) ++ P.awards.map (fun a => a.bid)).Perm
    (b :: (before ++ (pre ++ post ++ behind) ++ P.awards.map (fun a => a.bid)))
  simp only [List.append_assoc, List.cons_append]
  rw [← List.append_assoc, ← List.append_assoc before]
  exact List.perm_middle

/-- The record of an awarded tag leaves the records with its removal from the award list (R83). -/
theorem Port.records_removeAward (P : Port) {a : AwardRecord} (ha : P.Awarded a) :
    P.records.Perm (a.bid :: (P.removeAward a.bid.tag).records) := by
  obtain ⟨x, hx, hbid⟩ := Option.map_eq_some_iff.mp ha
  obtain ⟨htag, pre, post, hsplit, hpre⟩ := List.find?_eq_some_iff_append.mp hx
  have herase : P.awards.eraseP (fun y => y.bid.tag == a.bid.tag) = pre ++ post := by
    rw [hsplit, List.eraseP_append_right _ (fun y hy => by simpa using hpre y hy)]
    simp [htag]
  rw [Port.records, Port.records]
  show (P.queued ++ P.awards.map (fun a => a.bid)).Perm
    (a.bid :: (P.queued ++ (P.awards.eraseP (fun y => y.bid.tag == a.bid.tag)).map (fun a => a.bid)))
  rw [herase, hsplit, List.map_append, List.map_append, List.map_cons, hbid, ← List.append_assoc, ← List.append_assoc]
  exact List.perm_middle

theorem Port.records_mapRow {P : Port} {k : ClassNo} {f : Row → Row} (hf : ∀ r, (f r).queue = r.queue) :
    (P.mapRow k f).records = P.records := by
  refine Port.records_congr (fun c => ?_) rfl
  rw [Port.row_mapRow]
  split
  · subst_vars; exact hf _
  · rfl

theorem Port.row_mapActive (P : Port) (f : Row → Row) (c : ClassNo) :
    ({ P with active := P.active.map f } : Port).row c = f (P.row c) := by simp [Port.row]

theorem Port.records_recomputeShares (P : Port) (g : Grade) : (P.recomputeShares g).records = P.records :=
  Port.records_congr (fun c => by simp [Port.recomputeShares, Port.row]) rfl

theorem Port.records_accrue (P : Port) : P.accrue.records = P.records := by
  refine Port.records_congr (fun c => ?_) rfl
  have hqueue : ∀ n r, (Row.accrue n r).queue = r.queue := fun n r => by unfold Row.accrue; split <;> rfl
  simp [Port.accrue, Port.row, hqueue]

theorem Port.records_clearQueues (P : Port) : P.records = P.queued ++ P.clearQueues.records := by
  rw [Port.records, Port.records, Port.queued_clearQueues]; rfl

theorem Port.records_dropped (P : Port) : P.dropped.records = [] := by
  have hqueued : P.dropped.queued = P.clearQueues.queued := rfl
  rw [Port.records, hqueued, Port.queued_clearQueues]; rfl

theorem Port.records_warm (P : Port) : P.warm.records = [] := by
  have hqueued : P.warm.queued = [] := by simp [Port.queued, Port.warm, Port.row]
  rw [Port.records, hqueued]; rfl

theorem Port.withdrawsAmong_ascending (P : Port) : P.withdrawsAmong ascending = P.withdraws :=
  funext fun d => by simp [Port.withdrawsAmong, mem_ascending]

theorem Port.row_appliedTo_ascending (P : Port) (c : ClassNo) :
    (P.appliedTo ascending).row c = (P.row c).applied (P.stagedRow c) := by
  rw [Port.row_appliedTo P ascending ascending_nodup, if_pos (mem_ascending c)]

/-- The queue of a row after a commit: empty where the row is withdrawn (R17), as it was otherwise. -/
theorem Port.queue_committed (P : Port) (c : ClassNo) :
    (P.committed.row c).queue = if P.withdraws c then [] else (P.row c).queue := by
  have hqueue : (P.committed.row c).queue = ((P.appliedTo ascending).row c).queue := by
    simp [Port.committed, Port.completed, Port.recomputeShares, Port.row]
  rw [hqueue, Port.row_appliedTo_ascending]
  unfold Row.applied Port.withdraws
  cases (P.row c).contract.valid
  · simp
  · cases (P.stagedRow c).valid <;> simp [Row.update, Row.fresh]

theorem Port.completed_awards (P : Port) : P.completed.awards = P.awards := rfl

theorem Port.committed_awards (P : Port) : P.committed.awards = P.awards.map (AwardRecord.unmarkedBy P.withdraws) := by
  rw [← Port.withdrawsAmong_ascending, Port.committed, Port.completed_awards, Port.appliedTo_awards P ascending_nodup]

/-- A commit takes the withdrawn records from the port, and no others (R17). -/
theorem Port.records_committed (P : Port) : P.records.Perm (P.withdrawnRecords ++ P.committed.records) := by
  have hqueued : P.queued = ascending.flatMap (fun c => P.withdrawn c ++ (P.committed.row c).queue) := by
    refine List.flatMap_congr fun c _ => ?_
    rw [Port.queue_committed, Port.withdrawn]
    split <;> simp
  have hawards : P.committed.awards.map (fun a => a.bid) = P.awards.map (fun a => a.bid) := by
    rw [Port.committed_awards, List.map_map]
    exact List.map_congr_left fun a _ => a.unmarkedBy_bid _
  rw [Port.records, Port.records, hawards, hqueued, ← List.append_assoc]
  exact (List.flatMap_append_perm ascending P.withdrawn fun c => (P.committed.row c).queue).symm.append_right _

/-! ## Unique tags (R47, R83) -/

/-- The tags of the held records of the port are unique. -/
def Port.TagsUnique (P : Port) : Prop := (P.records.map (fun b => b.tag)).Nodup

section
variable {P Q : Port}

theorem Port.TagsUnique.of_perm (h : P.TagsUnique) (hperm : Q.records.Perm P.records) : Q.TagsUnique :=
  (hperm.map _).nodup_iff.mpr h

/-- The records that stay when some leave keep their tags unique. -/
theorem Port.TagsUnique.of_left (h : P.TagsUnique) {rs : List BidRecord} (hperm : P.records.Perm (rs ++ Q.records)) :
    Q.TagsUnique := by
  have hnodup := (hperm.map (fun b : BidRecord => b.tag)).nodup_iff.mp h
  rw [List.map_append] at hnodup
  exact (List.nodup_append.mp hnodup).2.1

theorem Port.TagsUnique.of_records (h : P.TagsUnique) (hrecords : Q.records = P.records) : Q.TagsUnique :=
  h.of_perm (hrecords ▸ .refl _)

theorem Port.TagsUnique.of_none (hrecords : Q.records = []) : Q.TagsUnique := by
  rw [Port.TagsUnique, hrecords]; exact List.nodup_nil

theorem Port.TagsUnique.accept (h : P.TagsUnique) {k : ClassNo} {b : BidRecord} (hnew : P.tagInUse b.tag = false) :
    (P.mapRow k (fun r => { r with queue := r.queue ++ [b] })).TagsUnique := by
  refine ((P.records_accept k b).map _).nodup_iff.mpr (List.nodup_cons.mpr ⟨fun hmem => ?_, h⟩)
  obtain ⟨x, hx, htag⟩ := List.mem_map.mp hmem
  exact absurd ((Port.tagInUse_iff P b.tag).mpr ⟨x, hx, htag⟩) (by simp [hnew])

end

theorem Port.queue_sublist_queued {P Q : Port} (h : ∀ c, (Q.row c).queue.Sublist (P.row c).queue) :
    Q.queued.Sublist P.queued := by
  unfold Port.queued
  induction ascending with
  | nil => exact .slnil
  | cons c cs ih => exact (h c).append ih

theorem Port.TagsUnique.of_sublist {P Q : Port} (h : P.TagsUnique) (hrecords : Q.records.Sublist P.records) :
    Q.TagsUnique := List.Nodup.sublist (hrecords.map _) h

/-- Every change of a port keeps its tags unique: only an accepted bid adds a tag, and that is a new one (R47). -/
theorem portChange_tagsUnique {c : Instr} {p : PortNo} {P Q : Port} (hchange : PortChange c p P Q)
    (h : P.TagsUnique) : Q.TagsUnique := by
  cases hchange with
  | elapse n => exact h.of_records (P.records_elapse n)
  | counters x => exact h.of_records rfl
  | award x b rest now hwindow hsel hqueue => exact h.of_perm (P.records_award now hqueue)
  | closeRun => exact h.of_records rfl
  | accept k b hvalid hroom hnew hlength => exact h.accept hnew
  | removeQueued k tag =>
    refine h.of_sublist ((Port.queue_sublist_queued fun c => ?_).append (List.Sublist.refl _))
    rw [Port.removeQueued, Port.row_mapRow]
    split
    · subst_vars; exact List.eraseP_sublist
    · exact List.Sublist.refl _
  | removeAward tag => exact h.of_sublist ((List.Sublist.refl _).append (List.eraseP_sublist.map _))
  | refund k charge n => exact h.of_records (Port.records_mapRow (Row.refund_queue charge n))
  | raise g hc hg => exact h.of_records (Port.records_recomputeShares _ g)
  | fall hc => exact h.of_records rfl
  | fallTimed n hc hbefore => exact h.of_records rfl
  | fallStranded hc hbefore => exact h.of_records rfl
  | strand htimer => exact h.of_records rfl
  | clearQueues => exact h.of_left (rs := P.queued) (.of_eq P.records_clearQueues)
  | drop => exact .of_none P.records_dropped
  | commit hc hpending => exact h.of_left P.records_committed
  | accrue => exact h.of_records P.records_accrue
  | reload => exact h.of_records rfl
  | settings pb b x hc hw => exact h.of_records rfl
  | mode pb mb m hc => exact h.of_records rfl
  | stage k x hfree hx hlock => exact h.of_records rfl
  | pend hok => exact h.of_records rfl
  | abort => exact h.of_records rfl
  | lock k pb cb hc hfree hvalid hprot => exact h.of_records rfl
  | warm => exact .of_none P.records_warm

theorem Port.row_cold (c : ClassNo) : Port.cold.row c = .cold := by simp [Port.row, Port.cold]

theorem Port.records_cold : Port.cold.records = [] := by
  have hqueued : Port.cold.queued = [] := by
    simp only [Port.queued, Port.row_cold]; rfl
  rw [Port.records, hqueued]; rfl

/-- Settles O10: the uniqueness is a law of each port, and every change of a port keeps it. -/
theorem tagsStayUnique : Obligations.TagsStayUnique :=
  keptByStep_of_portChange (Law := Port.TagsUnique) (fun _ _ _ _ => portChange_tagsUnique)
    (.of_none Port.records_cold)

end Sys2Proof.Machine
end

section
/-! PROOFS. The accounts of every row stay within their bounds under each change of a port (O11). -/

namespace Sys2Proof.Machine

/-! ## The rows after each change of a port -/

theorem Port.row_recomputeShares (P : Port) (g : Grade) (c : ClassNo) :
    (P.recomputeShares g).row c = { P.row c with
      e := (effectiveShares (gradeBoost g) P.contracts (P.row c).contract).1
      ce := (effectiveShares (gradeBoost g) P.contracts (P.row c).contract).2 } := by
  simp [Port.recomputeShares, Port.row]

theorem Port.row_accrue (P : Port) (c : ClassNo) :
    P.accrue.row c = (P.row c).accrue (P.settings.baseRate * P.loadedPeriod * gradeValue P.grade) := by
  simp [Port.accrue, Port.row]

theorem Port.row_dropped (P : Port) (c : ClassNo) : P.dropped.row c = { P.row c with queue := [] } :=
  Port.row_clearQueues P c

theorem Port.row_warm (P : Port) (c : ClassNo) :
    P.warm.row c = { P.row c with fb := 0, cb := 0, rf := 0, rc := 0, queue := [] } := by
  simp [Port.warm, Port.row]

theorem Port.row_completed (Q : Port) (c : ClassNo) : Q.completed.row c = (Q.recomputeShares Q.shareGrade).row c := rfl

theorem Port.row_committed (P : Port) (c : ClassNo) :
    ∃ x y, P.committed.row c = { (P.row c).applied (P.stagedRow c) with e := x, ce := y } := by
  rw [← Port.row_appliedTo_ascending, Port.committed, Port.row_completed, Port.row_recomputeShares]
  exact ⟨_, _, rfl⟩

/-! ## The bounds of one row -/

theorem burstBytes_nonneg (n : Nat) : 0 ≤ burstBytes n := Int.natCast_nonneg _

theorem Row.bounded_congr {r x : Row} (h : r.Bounded) (hcontract : x.contract = r.contract) (hfb : x.fb = r.fb)
    (hcb : x.cb = r.cb) (hrf : x.rf = r.rf) (hrc : x.rc = r.rc) (hqueue : ∀ b ∈ x.queue, b ∈ r.queue) : x.Bounded := by
  obtain ⟨h1, h2, h3, h4, h5, h6, hlengths⟩ := h
  rw [Row.Bounded, hcontract, hfb, hcb, hrf, hrc]
  exact ⟨h1, h2, h3, h4, h5, h6, fun b hb => hlengths b (hqueue b hb)⟩

/-- A charge follows a positive account and is of at most 1,048,576 bytes (R34, R35, R37). -/
theorem Row.bounded_charge {r : Row} {b : BidRecord} {rest : List BidRecord} {k : Charge} (h : r.Bounded)
    (hqueue : r.queue = b :: rest) (hcredit : 0 < r.credit k) :
    (({ r with queue := rest } : Row).charge k b.length).Bounded := by
  obtain ⟨hfloor, hfb, hceiling, hcb, hrf, hrc, hlengths⟩ := h
  obtain ⟨hone, hmax⟩ := hlengths b (hqueue ▸ List.mem_cons_self)
  have hrest : ∀ x ∈ rest, 1 ≤ x.length ∧ x.length ≤ 1048576 := fun x hx =>
    hlengths x (hqueue ▸ List.mem_cons_of_mem b hx)
  cases k with
  | floor =>
    replace hcredit : 0 < r.fb := hcredit
    refine ⟨?_, ?_, ?_, ?_, hrf, hrc, hrest⟩ <;> (simp only [Row.charge, ceilingFloor]; omega)
  | ceiling => refine ⟨hfloor, hfb, ?_, ?_, hrf, hrc, hrest⟩ <;> (simp only [Row.charge, ceilingFloor]; omega)

theorem Row.bounded_refund {r : Row} (h : r.Bounded) (k : Charge) (n : Nat) : (r.refund k n).Bounded := by
  obtain ⟨hfloor, hfb, hceiling, hcb, hrf, hrc, hlengths⟩ := h
  have := burstBytes_nonneg r.contract.floorBurst
  have := burstBytes_nonneg r.contract.ceilingBurst
  cases k with
  | floor => refine ⟨?_, ?_, ?_, ?_, hrf, hrc, hlengths⟩ <;> (simp only [Row.refund]; omega)
  | ceiling => refine ⟨hfloor, hfb, ?_, ?_, hrf, hrc, hlengths⟩ <;> (simp only [Row.refund]; omega)

theorem Row.bounded_accrue {r : Row} (h : r.Bounded) (n : Nat) : (r.accrue n).Bounded := by
  obtain ⟨hfloor, hfb, hceiling, hcb, hrf, hrc, hlengths⟩ := id h
  have := burstBytes_nonneg r.contract.floorBurst
  have := burstBytes_nonneg r.contract.ceilingBurst
  unfold Row.accrue
  dsimp only
  split
  · exact h
  · exact ⟨by dsimp only; omega, Int.min_le_right _ _, by dsimp only; omega, Int.min_le_right _ _,
      by dsimp only; omega, by dsimp only; omega, hlengths⟩

/-- A row at 0 is within its bounds. -/
theorem Row.bounded_zero {r : Row} (hfb : r.fb = 0) (hcb : r.cb = 0) (hrf : r.rf = 0) (hrc : r.rc = 0)
    (hlengths : ∀ b ∈ r.queue, 1 ≤ b.length ∧ b.length ≤ 1048576) : r.Bounded := by
  have := burstBytes_nonneg r.contract.floorBurst
  have := burstBytes_nonneg r.contract.ceilingBurst
  rw [Row.Bounded, hfb, hcb, hrf, hrc]
  exact ⟨by omega, by omega, by omega, by omega, by omega, by omega, hlengths⟩

theorem Row.bounded_update {r : Row} (h : r.Bounded) (x : Contract) : (r.update x).Bounded := by
  obtain ⟨hfloor, hfb, hceiling, hcb, hrf, hrc, hlengths⟩ := h
  have := burstBytes_nonneg x.floorBurst
  have := burstBytes_nonneg x.ceilingBurst
  refine ⟨?_, ?_, ?_, ?_, hrf, hrc, hlengths⟩ <;> (simp only [Row.update]; omega)

/-- What a commit does to a row keeps it within its new bursts (R15 to R17). -/
theorem Row.bounded_applied {r : Row} (h : r.Bounded) (x : Contract) : (r.applied x).Bounded := by
  obtain ⟨-, -, -, -, -, -, hlengths⟩ := id h
  unfold Row.applied
  split
  · exact Row.bounded_zero rfl rfl rfl rfl hlengths
  · split
    · exact Row.bounded_update h x
    · exact Row.bounded_zero rfl rfl rfl rfl (fun _ hb => absurd hb List.not_mem_nil)

/-! ## The law (O11) -/

/-- The rows of the port are within their bounds. -/
def Port.AccountsBounded (P : Port) : Prop := ∀ c, (P.row c).Bounded

section
variable {P Q : Port}

theorem Port.AccountsBounded.of_rows (h : P.AccountsBounded) (hrow : ∀ c, Q.row c = P.row c) : Q.AccountsBounded :=
  fun c => hrow c ▸ h c

theorem Port.AccountsBounded.mapRow (h : P.AccountsBounded) (k : ClassNo) {f : Row → Row}
    (hf : (f (P.row k)).Bounded) : (P.mapRow k f).AccountsBounded := fun c => by
  rw [Port.row_mapRow]
  split
  · subst_vars; exact hf
  · exact h c

end

/-- Every change of a port keeps its accounts within their bounds (R37). -/
theorem portChange_accountsBounded {c : Instr} {p : PortNo} {P Q : Port} (hchange : PortChange c p P Q)
    (h : P.AccountsBounded) : Q.AccountsBounded := by
  have hempty : ∀ k, ({ P.row k with queue := [] } : Row).Bounded := fun k =>
    Row.bounded_congr (h k) rfl rfl rfl rfl rfl (fun _ hb => absurd hb List.not_mem_nil)
  cases hchange with
  | elapse n => exact h.of_rows fun _ => rfl
  | counters x => exact h.of_rows fun _ => rfl
  | award x b rest now hwindow hsel hqueue =>
    intro k
    rw [Port.row_award]
    split
    · exact Row.bounded_charge (h x.cls) hqueue hsel.credit
    · exact h k
  | closeRun => exact h.of_rows fun _ => rfl
  | accept k b hvalid hroom hnew hlength =>
    refine h.mapRow k ?_
    obtain ⟨h1, h2, h3, h4, h5, h6, hlengths⟩ := h k
    refine ⟨h1, h2, h3, h4, h5, h6, fun x hx => ?_⟩
    rcases List.mem_append.mp hx with hx | hx
    · exact hlengths x hx
    · rw [List.mem_singleton.mp hx]; exact hlength
  | removeQueued k tag =>
    exact h.mapRow k (Row.bounded_congr (h k) rfl rfl rfl rfl rfl fun b hb => List.mem_of_mem_eraseP hb)
  | removeAward tag => exact h.of_rows fun _ => rfl
  | refund k charge n => exact h.mapRow k (Row.bounded_refund (h k) charge n)
  | raise g hc hg =>
    intro k
    refine Row.bounded_congr (r := P.row k) (h k) ?_ ?_ ?_ ?_ ?_ ?_ <;>
      simp [Port.recomputeShares, Port.row]
  | fall hc => exact h.of_rows fun _ => rfl
  | fallTimed n hc hbefore => exact h.of_rows fun _ => rfl
  | fallStranded hc hbefore => exact h.of_rows fun _ => rfl
  | strand htimer => exact h.of_rows fun _ => rfl
  | clearQueues => exact fun k => (Port.row_clearQueues P k) ▸ hempty k
  | drop => exact fun k => (Port.row_dropped P k) ▸ hempty k
  | commit hc hpending =>
    intro k
    obtain ⟨x, y, hrow⟩ := P.row_committed k
    rw [hrow]
    exact Row.bounded_congr (Row.bounded_applied (h k) (P.stagedRow k)) rfl rfl rfl rfl rfl fun _ hb => hb
  | accrue => exact fun k => (Port.row_accrue P k) ▸ Row.bounded_accrue (h k) _
  | reload => exact h.of_rows fun _ => rfl
  | settings pb b x hc hw => exact h.of_rows fun _ => rfl
  | mode pb mb m hc => exact h.of_rows fun _ => rfl
  | stage k x hfree hx hlock => exact h.of_rows fun _ => rfl
  | pend hok => exact h.of_rows fun _ => rfl
  | abort => exact h.of_rows fun _ => rfl
  | lock k pb cb hc hfree hvalid hprot => exact h.of_rows fun _ => rfl
  | warm =>
    exact fun k => (Port.row_warm P k) ▸ Row.bounded_zero rfl rfl rfl rfl fun _ hb => absurd hb List.not_mem_nil

/-- Settles O11: the bounds are a law of each port, and every change of a port keeps it. -/
theorem accountsStayBounded : Obligations.AccountsStayBounded :=
  keptByStep_of_portChange (Law := Port.AccountsBounded) (fun _ _ _ _ => portChange_accountsBounded)
    fun c => Port.row_cold c ▸ Row.bounded_zero rfl rfl rfl rfl fun _ hb => absurd hb List.not_mem_nil

end Sys2Proof.Machine
end

section
/-! PROOFS. The locks and the allotment tables of every port hold under each change of a port (O13). -/

namespace Sys2Proof.Machine

/-! ## The contracts of a port -/

theorem Port.contracts_congr {P Q : Port} (h : ∀ c, (Q.row c).contract = (P.row c).contract) :
    Q.contracts = P.contracts := by
  have hmap : Q.active.map Row.contract = P.active.map Row.contract :=
    Vector.ext fun i hi => by
      have := h ⟨i, hi⟩
      simpa [Port.row] using this
  have hlist := congrArg Vector.toList hmap
  rwa [Vector.toList_map, Vector.toList_map] at hlist

theorem Port.mem_contracts {P : Port} {x : Contract} : x ∈ P.contracts ↔ ∃ c, (P.row c).contract = x := by
  simp only [Port.contracts, List.mem_map, Vector.mem_toList_iff, Vector.mem_iff_getElem, Port.row]
  constructor
  · rintro ⟨_, ⟨i, hi, rfl⟩, rfl⟩
    exact ⟨⟨i, hi⟩, rfl⟩
  · rintro ⟨c, rfl⟩
    exact ⟨_, ⟨c, c.isLt, rfl⟩, rfl⟩

theorem Row.applied_contract (r : Row) (x : Contract) : (r.applied x).contract = x := by
  unfold Row.applied
  split
  · rfl
  · split <;> rfl

theorem Port.contract_committed (P : Port) (c : ClassNo) : (P.committed.row c).contract = P.stagedRow c := by
  obtain ⟨x, y, hrow⟩ := P.row_committed c
  rw [hrow]
  exact Row.applied_contract _ _

/-- Ports whose rows have the given contracts list them. -/
theorem Port.contracts_eq_toList {Q : Port} {x : Vector Contract 16} (h : ∀ c : ClassNo, (Q.row c).contract = x[c]) :
    Q.contracts = x.toList := by
  have hmap : Q.active.map Row.contract = x :=
    Vector.ext fun i hi => by
      have := h ⟨i, hi⟩
      simpa [Port.row] using this
  have hlist := congrArg Vector.toList hmap
  rwa [Vector.toList_map] at hlist

theorem Port.contracts_recomputeShares (Q : Port) (g : Grade) : (Q.recomputeShares g).contracts = Q.contracts :=
  Port.contracts_congr fun c => by rw [Port.row_recomputeShares]

theorem Port.completed_frame (Q : Port) :
    Q.completed = { Q with active := Q.completed.active, referenceGrade := Q.shareGrade, commitStatus := .applied } := rfl

/-- What a commit leaves of its port beside the rows, the award marks and the run (R14 to R18). -/
theorem Port.committed_frame (P : Port) :
    P.committed = { P with active := P.committed.active, awards := P.committed.awards, run := P.committed.run,
                           referenceGrade := P.shareGrade, commitStatus := .applied } := by
  obtain ⟨Q, hQ, hframe⟩ : ∃ Q : Port, P.committed = Q.completed ∧ P.sameOutsideClasses Q :=
    ⟨_, rfl, P.appliedTo_frame ascending⟩
  have hgrade : Q.shareGrade = P.shareGrade := by rw [hframe]; rfl
  have hcompleted := Q.completed_frame
  rw [hgrade] at hcompleted
  rw [hQ, hcompleted, hframe]

/-! ## What the changes leave of the tables -/

/-- The contract and the shares of the row stay, and its queue grows only within the limit of a valid row. -/
structure Row.KeepsTerms (r x : Row) : Prop where
  contract : x.contract = r.contract
  e : x.e = r.e
  ce : x.ce = r.ce
  queue : x.queue.length ≤ r.queue.length ∨ (r.contract.valid = true ∧ x.queue.length ≤ r.contract.queueLimit)

theorem Row.keepsTerms_refl (r : Row) : r.KeepsTerms r := ⟨rfl, rfl, rfl, .inl (Nat.le_refl _)⟩

/-- The tables of the port stay, its shares and its reference grade; the grade may fall. -/
structure Port.KeepsTables (P Q : Port) : Prop where
  locks : Q.locks = P.locks
  staged : Q.staged = P.staged
  status : Q.commitStatus = .pending → P.commitStatus = .pending
  reference : Q.referenceGrade = P.referenceGrade
  grade : Q.grade ≠ .down → Q.grade = P.grade
  rows : ∀ c, (P.row c).KeepsTerms (Q.row c)

/-- The changes that reach the tables. -/
inductive TableChange (c : Instr) (p : PortNo) : Port → Port → Prop
  | keep {P Q : Port} (h : P.KeepsTables Q) : TableChange c p P Q
  | raise (P : Port) (g) (hg : g ≠ .down) :
      TableChange c p P { ({ P with grade := g } : Port).recomputeShares g with holdDownTimer := none, stranded := false }
  | commit (P) (hc : c = .accrualTimerExpiry p) (hpending : P.commitStatus = .pending) : TableChange c p P P.committed
  | stage (P k) (x : Contract) (hfree : P.commitStatus ≠ .pending) (hx : x.InRange)
      (hlock : (P.lockCell k).brokenBy x = false) : TableChange c p P (P.setStaged k x)
  | pend (P : Port) (hok : ¬ P.refusesCommit) : TableChange c p P { P with commitStatus := .pending }
  | lock (P k) (pb cb) (hc : c = .lock pb cb) (hfree : P.commitStatus ≠ .pending)
      (hvalid : (P.row k).contract.valid = true) (hprot : (P.row k).contract.isProtected = true) :
      TableChange c p P (P.setLock k { locked := true, floor := (P.row k).contract.floorShare })
  | warm (P) : TableChange c p P P.warm

section
variable {P Q : Port}

/-- A change that leaves every row. -/
theorem Port.keepsTables_of_rows (hrow : ∀ c, Q.row c = P.row c) (hlocks : Q.locks = P.locks)
    (hstaged : Q.staged = P.staged) (hstatus : Q.commitStatus = .pending → P.commitStatus = .pending)
    (hreference : Q.referenceGrade = P.referenceGrade) (hgrade : Q.grade ≠ .down → Q.grade = P.grade) :
    P.KeepsTables Q :=
  ⟨hlocks, hstaged, hstatus, hreference, hgrade, fun c => hrow c ▸ Row.keepsTerms_refl _⟩

theorem Port.keepsTables_mapRow (k : ClassNo) {f : Row → Row} (hf : (P.row k).KeepsTerms (f (P.row k))) :
    P.KeepsTables (P.mapRow k f) := by
  refine ⟨rfl, rfl, id, rfl, fun _ => rfl, fun c => ?_⟩
  rw [Port.row_mapRow]
  split
  · subst_vars; exact hf
  · exact Row.keepsTerms_refl _

end

theorem Row.refund_keepsTerms (k : Charge) (n : Nat) (r : Row) : r.KeepsTerms (r.refund k n) := by
  cases k <;> exact ⟨rfl, rfl, rfl, .inl (Nat.le_refl _)⟩

theorem Row.accrue_keepsTerms (n : Nat) (r : Row) : r.KeepsTerms (r.accrue n) := by
  unfold Row.accrue
  dsimp only
  split <;> exact ⟨rfl, rfl, rfl, .inl (Nat.le_refl _)⟩

theorem Row.emptied_keepsTerms (r : Row) : r.KeepsTerms { r with queue := [] } := ⟨rfl, rfl, rfl, .inl (Nat.zero_le _)⟩

theorem Row.charge_keepsTerms {r : Row} {b : BidRecord} {rest : List BidRecord} (k : Charge) (n : Nat)
    (h : r.queue = b :: rest) : r.KeepsTerms (({ r with queue := rest } : Row).charge k n) := by
  have hlength : rest.length ≤ r.queue.length := by simp [h]
  cases k <;> exact ⟨rfl, rfl, rfl, .inl hlength⟩

/-- The award of a port touches no table. -/
theorem Port.keepsTables_award {P : Port} {x : Selection} {b : BidRecord} {rest : List BidRecord} (now : Stamp)
    (hqueue : (P.row x.cls).queue = b :: rest) : P.KeepsTables (P.award x b rest now) := by
  refine ⟨?_, ?_, ?_, ?_, ?_, fun c => ?_⟩
  case refine_6 =>
    rw [Port.row_award]
    split
    · subst_vars; exact Row.charge_keepsTerms _ _ hqueue
    · exact Row.keepsTerms_refl _
  all_goals rw [Port.award_eq]
  case refine_3 => exact id
  case refine_5 => exact fun _ => rfl
  all_goals rfl

theorem tableChange_of_portChange {c : Instr} {p : PortNo} {P Q : Port} (hchange : PortChange c p P Q) :
    TableChange c p P Q := by
  have hsame : ∀ {R : Port}, (∀ k, R.row k = P.row k) → R.locks = P.locks → R.staged = P.staged →
      (R.commitStatus = .pending → P.commitStatus = .pending) → R.referenceGrade = P.referenceGrade →
      (R.grade ≠ .down → R.grade = P.grade) → TableChange c p P R := fun hrow hlocks hstaged hstatus href hgrade =>
    .keep (Port.keepsTables_of_rows hrow hlocks hstaged hstatus href hgrade)
  cases hchange with
  | elapse n => exact hsame (fun _ => rfl) rfl rfl id rfl fun _ => rfl
  | counters x => exact hsame (fun _ => rfl) rfl rfl id rfl fun _ => rfl
  | award x b rest now hwindow hsel hqueue => exact .keep (Port.keepsTables_award now hqueue)
  | closeRun => exact hsame (fun _ => rfl) rfl rfl id rfl fun _ => rfl
  | accept k b hvalid hroom hnew hlength =>
    refine .keep (Port.keepsTables_mapRow k ⟨rfl, rfl, rfl, .inr ⟨hvalid, ?_⟩⟩)
    dsimp only
    rw [List.length_append]
    exact hroom
  | removeQueued k tag =>
    exact .keep (Port.keepsTables_mapRow k ⟨rfl, rfl, rfl, .inl List.eraseP_sublist.length_le⟩)
  | removeAward tag => exact hsame (fun _ => rfl) rfl rfl id rfl fun _ => rfl
  | refund k charge n => exact .keep (Port.keepsTables_mapRow k (Row.refund_keepsTerms charge n _))
  | raise g hc hg => exact .raise P g hg
  | fall hc => exact hsame (fun _ => rfl) rfl rfl id rfl fun h => absurd rfl h
  | fallTimed n hc hbefore => exact hsame (fun _ => rfl) rfl rfl id rfl fun h => absurd rfl h
  | fallStranded hc hbefore => exact hsame (fun _ => rfl) rfl rfl id rfl fun h => absurd rfl h
  | strand htimer => exact hsame (fun _ => rfl) rfl rfl id rfl fun _ => rfl
  | clearQueues =>
    exact .keep ⟨rfl, rfl, id, rfl, fun _ => rfl, fun k => Port.row_clearQueues P k ▸ Row.emptied_keepsTerms _⟩
  | drop => exact .keep ⟨rfl, rfl, id, rfl, fun _ => rfl, fun k => Port.row_dropped P k ▸ Row.emptied_keepsTerms _⟩
  | commit hc hpending => exact .commit P hc hpending
  | accrue =>
    exact .keep ⟨rfl, rfl, id, rfl, fun _ => rfl, fun k => Port.row_accrue P k ▸ Row.accrue_keepsTerms _ _⟩
  | reload => exact hsame (fun _ => rfl) rfl rfl id rfl fun _ => rfl
  | settings pb b x hc hw => exact hsame (fun _ => rfl) rfl rfl id rfl fun _ => rfl
  | mode pb mb m hc => exact hsame (fun _ => rfl) rfl rfl id rfl fun _ => rfl
  | stage k x hfree hx hlock => exact .stage P k x hfree hx hlock
  | pend hok => exact .pend P hok
  | abort => exact hsame (fun _ => rfl) rfl rfl (fun h : CommitStatus.aborted = .pending => nomatch h) rfl fun _ => rfl
  | lock k pb cb hc hfree hvalid hprot => exact .lock P k pb cb hc hfree hvalid hprot
  | warm => exact .warm P

/-! ## Locks (R20) -/

/-- The locks of the port hold. -/
def Port.LocksHold (P : Port) : Prop :=
  ∀ c, (P.lockCell c).brokenBy (P.row c).contract = false
    ∧ (P.commitStatus = .pending → (P.lockCell c).brokenBy (P.stagedRow c) = false)

theorem Port.lockCell_congr {P Q : Port} (h : Q.locks = P.locks) (c : ClassNo) : Q.lockCell c = P.lockCell c := by
  rw [Port.lockCell, Port.lockCell, h]

theorem Port.stagedRow_congr {P Q : Port} (h : Q.staged = P.staged) (c : ClassNo) : Q.stagedRow c = P.stagedRow c := by
  rw [Port.stagedRow, Port.stagedRow, h]

theorem LockCell.not_brokenBy_self {x : Contract} (hvalid : x.valid = true) (hprot : x.isProtected = true) :
    ({ locked := true, floor := x.floorShare } : LockCell).brokenBy x = false :=
  Bool.eq_false_iff.mpr fun h => by simp [LockCell.brokenBy_iff, hvalid, hprot] at h

theorem Port.committed_locks (P : Port) : P.committed.locks = P.locks := by rw [Port.committed_frame]
theorem Port.committed_status (P : Port) : P.committed.commitStatus = .applied := by rw [Port.committed_frame]
theorem Port.committed_staged (P : Port) : P.committed.staged = P.staged := by rw [Port.committed_frame]
theorem Port.committed_grade (P : Port) : P.committed.grade = P.grade := by rw [Port.committed_frame]

/-- Every change of a port keeps its locks: contracts change by a pending commit, and the staged rows of one keep the
locks (R8, R11, R20). -/
theorem tableChange_locksHold {c : Instr} {p : PortNo} {P Q : Port} (hchange : TableChange c p P Q)
    (h : P.LocksHold) : Q.LocksHold := by
  cases hchange with
  | keep hkeep =>
    intro d
    rw [Port.lockCell_congr hkeep.locks, Port.stagedRow_congr hkeep.staged, (hkeep.rows d).contract]
    exact ⟨(h d).1, fun hq => (h d).2 (hkeep.status hq)⟩
  | raise g hg =>
    have hcontract : ∀ d, (({ P with grade := g } : Port).recomputeShares g |>.row d).contract = (P.row d).contract :=
      fun d => by rw [Port.row_recomputeShares]; rfl
    exact fun d => ⟨(congrArg _ (hcontract d)).trans (h d).1, (h d).2⟩
  | commit hc hpending =>
    intro d
    rw [Port.lockCell_congr P.committed_locks, Port.contract_committed, Port.committed_status]
    exact ⟨(h d).2 hpending, fun hq => nomatch hq⟩
  | stage k x hfree hx hlock => exact fun d => ⟨(h d).1, fun hq => absurd hq hfree⟩
  | pend hok =>
    simp only [Port.refusesCommit, Port.breaksLock, not_or, not_exists, Bool.not_eq_true] at hok
    exact fun d => ⟨(h d).1, fun _ => hok.2.2 d⟩
  | lock k pb cb hc hfree hvalid hprot =>
    refine fun d => ⟨?_, fun hq => absurd hq hfree⟩
    rw [Port.lockCell_setLock]
    split
    · subst_vars; exact LockCell.not_brokenBy_self hvalid hprot
    · exact (h d).1
  | warm =>
    refine fun d => ⟨?_, fun hq : CommitStatus.none = .pending => nomatch hq⟩
    rw [Port.row_warm]
    exact (h d).1

theorem Port.locksHold_cold : Port.cold.LocksHold := by
  intro c
  simp [Port.cold, Port.lockCell, LockCell.brokenBy]

/-! ## Rows and queues (R49, Table 1.1) -/

/-- Contracts lie in their ranges; queues hold at most 255 records, those of invalid rows none. -/
def Port.RowsHold (P : Port) : Prop :=
  ∀ c, (P.row c).contract.InRange ∧ (P.stagedRow c).InRange ∧ (P.row c).queue.length ≤ 255
    ∧ ((P.row c).contract.valid = false → (P.row c).queue = [])

theorem Row.KeepsTerms.queue_le {r x : Row} (h : r.KeepsTerms x) (hrange : r.contract.InRange)
    (hqueue : r.queue.length ≤ 255) : x.queue.length ≤ 255 := by
  obtain ⟨-, -, -, -, -, -, -, hlimit, -⟩ := hrange
  rcases h.queue with h | ⟨-, h⟩ <;> omega

theorem Row.KeepsTerms.queue_nil {r x : Row} (h : r.KeepsTerms x)
    (hnil : r.contract.valid = false → r.queue = []) (hvalid : x.contract.valid = false) : x.queue = [] := by
  rw [h.contract] at hvalid
  rcases h.queue with hle | ⟨htrue, -⟩
  · rw [hnil hvalid] at hle
    exact List.length_eq_zero_iff.mp (Nat.le_zero.mp hle)
  · rw [hvalid] at htrue; cases htrue

theorem Port.row_committed_queue (P : Port) (c : ClassNo) :
    (P.committed.row c).queue = ((P.row c).applied (P.stagedRow c)).queue := by
  obtain ⟨x, y, hrow⟩ := P.row_committed c
  rw [hrow]

theorem Row.applied_queue_le (r : Row) (x : Contract) : (r.applied x).queue.length ≤ r.queue.length := by
  unfold Row.applied
  split
  · exact Nat.le_refl _
  · split
    · exact Nat.le_refl _
    · exact Nat.zero_le _

theorem Row.applied_queue_nil {r : Row} {x : Contract} (hnil : r.contract.valid = false → r.queue = [])
    (hx : x.valid = false) : (r.applied x).queue = [] := by
  unfold Row.applied
  split
  · rename_i h; exact hnil (by simpa using h)
  · rw [if_neg (by simp [hx])]; rfl

/-- Every change of a port keeps the laws of its rows (R7, R16, R17, R49). -/
theorem tableChange_rowsHold {c : Instr} {p : PortNo} {P Q : Port} (hchange : TableChange c p P Q)
    (h : P.RowsHold) : Q.RowsHold := by
  cases hchange with
  | keep hkeep =>
    intro d
    obtain ⟨hrange, hstaged, hlength, hnil⟩ := h d
    rw [Port.stagedRow_congr hkeep.staged]
    exact ⟨(hkeep.rows d).contract ▸ hrange, hstaged, (hkeep.rows d).queue_le hrange hlength,
      (hkeep.rows d).queue_nil hnil⟩
  | raise g hg =>
    have hrow : ∀ d, (P.row d).contract = (({ P with grade := g } : Port).recomputeShares g |>.row d).contract
        ∧ (P.row d).queue = (({ P with grade := g } : Port).recomputeShares g |>.row d).queue := fun d => by
      rw [Port.row_recomputeShares]; exact ⟨rfl, rfl⟩
    intro d
    have hd := h d
    rw [(hrow d).1, (hrow d).2] at hd
    exact hd
  | commit hc hpending =>
    intro d
    obtain ⟨hrange, hstaged, hlength, hnil⟩ := h d
    rw [Port.contract_committed, Port.stagedRow_congr P.committed_staged, Port.row_committed_queue]
    exact ⟨hstaged, hstaged, (Row.applied_queue_le _ _).trans hlength, Row.applied_queue_nil hnil⟩
  | stage k x hfree hx hlock =>
    intro d
    obtain ⟨hrange, hstaged, hqueue⟩ := h d
    refine ⟨hrange, ?_, hqueue⟩
    rw [Port.stagedRow_setStaged]
    split
    · exact hx
    · exact hstaged
  | pend hok => exact h
  | lock k pb cb hc hfree hvalid hprot => exact h
  | warm =>
    intro d
    have hstaged : P.warm.stagedRow d = (P.row d).contract := by simp [Port.warm, Port.stagedRow, Port.row]
    rw [Port.row_warm, hstaged]
    exact ⟨(h d).1, (h d).1, Nat.zero_le _, fun _ => rfl⟩

/-! ## Shares (R11, R28 to R31) -/

theorem Port.floorSum_staged (P : Port) : floorSum P.staged.toList = P.stagedFloorSum := rfl

/-- The effective floor shares of a port whose rows have the shares of R29 to R31 sum to at most 1024. -/
theorem Port.sum_shares_le {P : Port} {k : Nat}
    (h : ∀ c, ((P.row c).e, (P.row c).ce) = effectiveShares k P.contracts (P.row c).contract) :
    (P.active.toList.map Row.e).sum ≤ 1024 := by
  have hmap : P.active.toList.map Row.e = P.contracts.map fun x => (effectiveShares k P.contracts x).1 := by
    rw [Port.contracts, List.map_map]
    refine List.map_congr_left fun r hr => ?_
    obtain ⟨i, hi, rfl⟩ := Vector.mem_iff_getElem.mp (Vector.mem_toList_iff.mp hr)
    exact congrArg Prod.fst (h ⟨i, hi⟩)
  rw [hmap]
  exact sum_effectiveShares_le _ _

/-- What the shares hold follows from the floor sums, the grades and the shares of the rows (R31). -/
theorem Port.sharesHold_of_shares {P : Port} (hrows : P.RowsHold) (hsum : floorSum P.contracts ≤ 1024)
    (hstaged : P.commitStatus = .pending → floorSum P.staged.toList ≤ 1024) (href : P.referenceGrade ≠ .down)
    (hgrade : P.grade ≠ .down → P.referenceGrade = P.grade)
    (hshares : ∀ c, ((P.row c).e, (P.row c).ce)
        = effectiveShares (4 / gradeValue P.referenceGrade) P.contracts (P.row c).contract) : P.SharesHold := by
  refine ⟨hsum, hstaged, href, hgrade, hshares, Port.sum_shares_le hshares, fun c hvalid => ?_⟩
  obtain ⟨⟨hfloor, -, hceiling, -⟩, -⟩ := hrows c
  have hbound := floor_le_ceiling_of_effectiveShares (4 / gradeValue P.referenceGrade) P.contracts hvalid
    ⟨hfloor, hceiling⟩
  rw [← hshares c] at hbound
  exact hbound

theorem Port.shares_recomputeShares (P : Port) (g : Grade) (c : ClassNo) :
    (((P.recomputeShares g).row c).e, ((P.recomputeShares g).row c).ce)
      = effectiveShares (4 / gradeValue g) (P.recomputeShares g).contracts ((P.recomputeShares g).row c).contract := by
  rw [Port.contracts_recomputeShares, Port.row_recomputeShares]
  rfl

theorem Port.contracts_committed (P : Port) : P.committed.contracts = P.staged.toList :=
  Port.contracts_eq_toList fun c => P.contract_committed c

theorem Port.committed_reference (P : Port) : P.committed.referenceGrade = P.shareGrade := by rw [Port.committed_frame]

theorem Port.shares_completed (Q : Port) (c : ClassNo) :
    ((Q.completed.row c).e, (Q.completed.row c).ce)
      = effectiveShares (4 / gradeValue Q.completed.referenceGrade) Q.completed.contracts
          (Q.completed.row c).contract := Q.shares_recomputeShares Q.shareGrade c

/-- Every change of a port keeps its shares: they are recomputed with the grade and with the contracts (R28). -/
theorem tableChange_sharesHold {c : Instr} {p : PortNo} {P Q : Port} (hchange : TableChange c p P Q)
    (hrows : P.RowsHold) (h : P.SharesHold) : Q.SharesHold := by
  have hafter := tableChange_rowsHold hchange hrows
  obtain ⟨hsum, hstaged, href, hgrade, hshares, -, -⟩ := id h
  cases hchange with
  | keep hkeep =>
    have hcontracts : Q.contracts = P.contracts := Port.contracts_congr fun d => (hkeep.rows d).contract
    refine Port.sharesHold_of_shares hafter (hcontracts ▸ hsum) (fun hq => hkeep.staged ▸ hstaged (hkeep.status hq))
      (hkeep.reference ▸ href) (fun hq => ?_) (fun d => ?_)
    · have heq := hkeep.grade hq
      rw [hkeep.reference, heq]
      exact hgrade (heq ▸ hq)
    · rw [(hkeep.rows d).e, (hkeep.rows d).ce, (hkeep.rows d).contract, hcontracts, hkeep.reference]
      exact hshares d
  | raise g hg =>
    refine Port.sharesHold_of_shares hafter ?_ hstaged hg (fun _ => rfl)
      (Port.shares_recomputeShares { P with grade := g } g)
    exact (congrArg floorSum (Port.contracts_recomputeShares { P with grade := g } g)).le.trans hsum
  | commit hc hpending =>
    refine Port.sharesHold_of_shares hafter ?_ ?_ ?_ ?_ (Port.shares_completed _)
    · rw [Port.contracts_committed]; exact hstaged hpending
    · rw [Port.committed_status]; exact fun hq => nomatch hq
    · rw [Port.committed_reference, Port.shareGrade]
      split
      · exact href
      · assumption
    · rw [Port.committed_reference, Port.committed_grade, Port.shareGrade]
      exact fun hq => if_neg hq
  | stage k x hfree hx hlock =>
    exact Port.sharesHold_of_shares hafter hsum (fun hq => absurd hq hfree) href hgrade hshares
  | pend hok =>
    simp only [Port.refusesCommit, not_or, Nat.not_lt] at hok
    exact Port.sharesHold_of_shares hafter hsum (fun _ => hok.2.1) href hgrade hshares
  | lock k pb cb hc hfree hvalid hprot => exact h
  | warm =>
    have hcontracts : P.warm.contracts = P.contracts := Port.contracts_congr fun d => by rw [Port.row_warm]
    refine Port.sharesHold_of_shares hafter (hcontracts ▸ hsum) (fun hq : CommitStatus.none = .pending => nomatch hq)
      href hgrade (fun d => ?_)
    rw [hcontracts, Port.row_warm]
    exact hshares d

theorem Port.rowsHold_cold : Port.cold.RowsHold := by
  intro c
  have hstaged : Port.cold.stagedRow c = .cold := by simp [Port.cold, Port.stagedRow]
  have hrange : Contract.cold.InRange := by unfold Contract.InRange; decide
  rw [Port.row_cold, hstaged]
  exact ⟨hrange, hrange, Nat.zero_le _, fun _ => rfl⟩

theorem Port.sharesHold_cold : Port.cold.SharesHold := by
  refine Port.sharesHold_of_shares Port.rowsHold_cold (by decide) (by decide) (by decide) (by decide) (fun c => ?_)
  rw [Port.row_cold, effectiveShares_of_invalid rfl]
  rfl

/-- The laws of the tables of one port. -/
def Port.TablesHold (P : Port) : Prop := P.RowsHold ∧ P.SharesHold

/-- Settles O13: both laws are laws of each port, and every change of its tables keeps them. -/
theorem locksAndTablesAlwaysHold : Obligations.LocksAndTablesAlwaysHold :=
  ⟨keptByStep_of_portChange (Law := Port.LocksHold)
      (fun _ _ _ _ hchange => tableChange_locksHold (tableChange_of_portChange hchange)) Port.locksHold_cold,
    keptByStep_of_portChange (Law := Port.TablesHold)
      (fun _ _ _ _ hchange h => ⟨tableChange_rowsHold (tableChange_of_portChange hchange) h.1,
        tableChange_sharesHold (tableChange_of_portChange hchange) h.1 h.2⟩)
      ⟨Port.rowsHold_cold, Port.sharesHold_cold⟩⟩

end Sys2Proof.Machine
end

section
/-! PROOFS. What only its own command changes (O16), and what each change of a port keeps of its condition flags and its
award window (parts of O14). -/

namespace Sys2Proof.Machine

section
variable {c : Instr} {p : PortNo} {P Q : Port}

/-! ## Modes, grades and settings -/

/-- The mode, the grade and the settings of a port, each as it was or of its own command (R100). -/
structure Port.KeepsConfiguration (c : Instr) (p : PortNo) (P Q : Port) : Prop where
  mode : Q.mode = P.mode ∨ ∃ pb m, c = .portMode pb m
  grade : Q.grade = P.grade ∨ ∃ g, c = .grade p g
  settings : Q.settings = P.settings ∨ ∃ pb b, c = .portSet pb b

theorem portChange_keepsConfiguration (h : PortChange c p P Q) : P.KeepsConfiguration c p Q := by
  cases h
  case award x b rest now hwindow hsel hqueue =>
    rw [Port.award_eq]
    exact ⟨.inl rfl, .inl rfl, .inl rfl⟩
  case raise g hc hg => exact ⟨.inl rfl, .inr ⟨g, hc⟩, .inl rfl⟩
  case fall hc => exact ⟨.inl rfl, .inr ⟨_, hc⟩, .inl rfl⟩
  case fallTimed n hc hbefore => exact ⟨.inl rfl, .inr ⟨_, hc⟩, .inl rfl⟩
  case fallStranded hc hbefore => exact ⟨.inl rfl, .inr ⟨_, hc⟩, .inl rfl⟩
  case commit hc hpending =>
    rw [Port.committed_frame]
    exact ⟨.inl rfl, .inl rfl, .inl rfl⟩
  case settings pb b x hc hw => exact ⟨.inl rfl, .inl rfl, .inr ⟨pb, b, hc⟩⟩
  case mode pb mb m hc => exact ⟨.inr ⟨pb, mb, hc⟩, .inl rfl, .inl rfl⟩
  all_goals exact ⟨.inl rfl, .inl rfl, .inl rfl⟩

theorem portChanges_keepsConfiguration (h : PortChanges c p P Q) : P.KeepsConfiguration c p Q := by
  induction h with
  | refl => exact ⟨.inl rfl, .inl rfl, .inl rfl⟩
  | tail _ hstep ih =>
    have hlast := portChange_keepsConfiguration hstep
    exact ⟨hlast.mode.elim (fun h => ih.mode.imp_left h.trans) .inr,
      hlast.grade.elim (fun h => ih.grade.imp_left h.trans) .inr,
      hlast.settings.elim (fun h => ih.settings.imp_left h.trans) .inr⟩

/-! ## Contracts and locks -/

theorem Port.warm_contracts (P : Port) : P.warm.contracts = P.contracts := Port.contracts_congr fun k => by rw [Port.row_warm]

/-- The active contracts change by a commit only, at the accrual expiry of the port (R4), and the locks by LOCK only
(R20). -/
theorem tableChange_contracts_locks (h : TableChange c p P Q) :
    (Q.contracts = P.contracts ∨ c = .accrualTimerExpiry p) ∧ (Q.locks = P.locks ∨ ∃ pb cb, c = .lock pb cb) := by
  cases h with
  | keep hkeep => exact ⟨.inl (Port.contracts_congr fun k => (hkeep.rows k).contract), .inl hkeep.locks⟩
  | raise g hg => exact ⟨.inl (Port.contracts_recomputeShares { P with grade := g } g), .inl rfl⟩
  | commit hc hpending => exact ⟨.inr hc, .inl P.committed_locks⟩
  | stage k x hfree hx hlock => exact ⟨.inl rfl, .inl rfl⟩
  | pend hok => exact ⟨.inl rfl, .inl rfl⟩
  | lock k pb cb hc hfree hvalid hprot => exact ⟨.inl rfl, .inr ⟨pb, cb, hc⟩⟩
  | warm => exact ⟨.inl P.warm_contracts, .inl rfl⟩

theorem portChanges_contracts_locks (h : PortChanges c p P Q) :
    (Q.contracts = P.contracts ∨ c = .accrualTimerExpiry p) ∧ (Q.locks = P.locks ∨ ∃ pb cb, c = .lock pb cb) := by
  induction h with
  | refl => exact ⟨.inl rfl, .inl rfl⟩
  | tail _ hstep ih =>
    obtain ⟨hcontracts, hlocks⟩ := tableChange_contracts_locks (tableChange_of_portChange hstep)
    exact ⟨hcontracts.elim (fun h => ih.1.imp_left h.trans) .inr, hlocks.elim (fun h => ih.2.imp_left h.trans) .inr⟩

/-! ## Condition flags and windows -/

theorem Port.ConditionHolds.of_frame (h : P.ConditionHolds) (hgrade : Q.grade = P.grade)
    (hstranded : Q.stranded = P.stranded) (htimer : Q.holdDownTimer = none ↔ P.holdDownTimer = none) :
    Q.ConditionHolds := by
  rw [Port.ConditionHolds, hgrade, hstranded, Ne, Ne, htimer]
  exact h

/-- Every change of a port keeps the flags of its condition: a grade above DOWN clears them, and only a fall from above
DOWN starts the timer (R109 to R112). -/
theorem portChange_conditionHolds (hchange : PortChange c p P Q) (h : P.ConditionHolds) : Q.ConditionHolds := by
  cases hchange
  case elapse n => exact h.of_frame rfl rfl (by simp [Port.elapse])
  case award x b rest now hwindow hsel hqueue =>
    rw [Port.award_eq]
    exact h.of_frame rfl rfl Iff.rfl
  case raise g hc hg => exact ⟨fun _ => ⟨rfl, rfl⟩, fun _ => rfl⟩
  case fall hc => exact ⟨fun hne => absurd rfl hne, h.2⟩
  case fallTimed n hc hbefore => exact ⟨fun hne => absurd rfl hne, fun _ => (h.1 hbefore).1⟩
  case fallStranded hc hbefore => exact ⟨fun hne => absurd rfl hne, fun hne => absurd (h.1 hbefore).2 hne⟩
  case strand htimer =>
    exact ⟨fun hne => absurd (h.1 hne).2 htimer, fun hne => absurd rfl hne⟩
  case commit hc hpending =>
    rw [Port.committed_frame]
    exact h.of_frame rfl rfl Iff.rfl
  all_goals exact h.of_frame rfl rfl Iff.rfl

theorem Port.WindowHolds.of_frame (h : P.WindowHolds) (hsettings : Q.settings = P.settings)
    (hawards : Q.awards.length ≤ P.awards.length) : Q.WindowHolds := by
  obtain ⟨hone, hmax, hlength⟩ := h
  rw [Port.WindowHolds, hsettings]
  exact ⟨hone, hmax, hawards.trans hlength⟩

/-- Every change of a port keeps its award list within 8 records: an award needs a place in the window (R62, R115). -/
theorem portChange_windowHolds (hchange : PortChange c p P Q) (h : P.WindowHolds) : Q.WindowHolds := by
  cases hchange
  case elapse n => exact h.of_frame rfl (by simp [Port.elapse])
  case award x b rest now hwindow hsel hqueue =>
    rw [Port.award_eq]
    refine ⟨h.1, h.2.1, ?_⟩
    dsimp only
    rw [List.length_append]
    exact Nat.succ_le_of_lt (hwindow.trans_le h.2.1)
  case removeAward tag => exact h.of_frame rfl List.eraseP_sublist.length_le
  case drop => exact h.of_frame rfl (Nat.zero_le _)
  case commit hc hpending =>
    have hlength : P.committed.awards.length = P.awards.length := by rw [Port.committed_awards, List.length_map]
    exact h.of_frame (by rw [Port.committed_frame]) hlength.le
  case settings pb b x hc hw => exact ⟨hw.1, hw.2, h.2.2⟩
  case warm => exact h.of_frame rfl (Nat.zero_le _)
  all_goals exact h.of_frame rfl (Nat.le_refl _)

theorem Port.conditionHolds_cold : Port.cold.ConditionHolds := ⟨fun h => absurd rfl h, fun h => absurd rfl h⟩

theorem Port.windowHolds_cold : Port.cold.WindowHolds := by
  refine ⟨?_, ?_, ?_⟩ <;> decide

end

/-! ## The source map and the marks -/

/-- What a command can do to a source entry, one change at a time. -/
inductive SourceChange (c : Instr) : SourceEntry → SourceEntry → Prop
  | release (x : SourceEntry) (n) : SourceChange c x { x with outstanding := x.outstanding - n }
  | take (x : SourceEntry) (h : x.outstanding < x.limit) : SourceChange c x { x with outstanding := x.outstanding + 1 }
  | store (x y) (eb b) (hc : c = .sourceSet eb b) (hout : y.outstanding = x.outstanding)
      (hlimit : 1 ≤ y.limit ∧ y.limit ≤ 255) : SourceChange c x y

@[reducible] def SourceChanges (c : Instr) : SourceEntry → SourceEntry → Prop := Relation.ReflTransGen (SourceChange c)

/-- Each source entry of the second state comes from that of the first by a chain of changes, and the marks of the pool
are as they were or have been brought into their ranges (R54). -/
structure State.SourcesChange (c : Instr) (s t : State) : Prop where
  source : ∀ e, SourceChanges c (s.source e) (t.source e)
  marks : (t.pool.lowMark = s.pool.lowMark ∧ t.pool.highMark = s.pool.highMark)
    ∨ (t.pool.lowMark < t.pool.highMark ∧ t.pool.highMark ≤ 2048)

section
variable {c : Instr}

theorem State.SourcesChange.trans {s t u : State} (h : s.SourcesChange c t) (k : t.SourcesChange c u) :
    s.SourcesChange c u := by
  refine ⟨fun e => (h.source e).trans (k.source e), ?_⟩
  rcases k.marks with ⟨hlow, hhigh⟩ | hnew
  · rw [hlow, hhigh]; exact h.marks
  · exact .inr hnew

theorem sourcesChange_of_same {s t : State} (hsources : t.sources = s.sources) (hpool : t.pool = s.pool) :
    s.SourcesChange c t :=
  ⟨fun e => by rw [State.source_congr hsources], .inl ⟨by rw [hpool], by rw [hpool]⟩⟩

theorem sourcesChange_refl (s : State) : s.SourcesChange c s := sourcesChange_of_same rfl rfl

theorem sourcesChange_returnRecords (s : State) (rs : List BidRecord) : s.SourcesChange c (s.returnRecords rs) := by
  obtain ⟨-, hlow, hhigh, hsource, -⟩ := s.returnRecords_spec rs
  exact ⟨fun e => by rw [hsource]; exact .single (.release _ _), .inl ⟨hlow, hhigh⟩⟩

theorem sourcesChange_returnRecord (s : State) (r : BidRecord) : s.SourcesChange c (s.returnRecord r) :=
  sourcesChange_returnRecords s [r]

theorem sourcesChange_declineRecords (s : State) (p : PortNo) (cause : Cause) (rs : List BidRecord) :
    s.SourcesChange c (s.declineRecords p cause rs) := by
  obtain ⟨-, hlow, hhigh, hsource, -⟩ := s.declineRecords_spec p cause rs
  exact ⟨fun e => by rw [hsource]; exact .single (.release _ _), .inl ⟨hlow, hhigh⟩⟩

theorem sourcesChange_declineQueues (s : State) (p : PortNo) (cause : Cause) :
    s.SourcesChange c (s.declineQueues p cause) :=
  (sourcesChange_of_same (s := s) (t := s.mapPort p Port.clearQueues) rfl rfl).trans (sourcesChange_declineRecords _ p cause _)

theorem sourcesChange_dropRecords (s : State) (p : PortNo) : s.SourcesChange c (s.dropRecords p) :=
  (sourcesChange_of_same (s := s) (t := s.setPort p (s.port p).dropped) rfl rfl).trans (sourcesChange_returnRecords _ _)

theorem sourcesChange_ladder (s : State) (p : PortNo) : s.SourcesChange c (s.ladder p) :=
  sourcesChange_of_same (by simp) (by simp)

theorem sourcesChange_afterFreeing (s : State) (full : Bool) : s.SourcesChange c (s.afterFreeing full) :=
  State.afterFreeing_keeps (I := fun t => s.SourcesChange c t) (fun t p h => h.trans (sourcesChange_ladder t p)) full
    (sourcesChange_refl s)

/-- An acceptance takes a place of its source, which is below the limit (R51 check 7, R53). -/
theorem sourcesChange_acceptBid (s : State) (b : BidBody) (e : EntryNo) (h : s.checkFrom2 b = .accept e) :
    s.SourcesChange c (s.acceptBid b e) := by
  obtain ⟨-, -, -, hlimit, -⟩ := checkFrom2_accept h
  refine ⟨fun d => ?_, .inl ?_⟩
  · have hsource : (s.acceptBid b e).source d
        = if d = e then { s.source e with outstanding := (s.source e).outstanding + 1 } else s.source d := by
      unfold State.acceptBid
      dsimp only
      rw [State.source_congr (State.evaluatePause_sources _)]
      exact State.source_setSource _ e d _
    rw [hsource]
    split
    · subst_vars; exact .single (.take _ hlimit)
    · exact .refl
  · simp [State.acceptBid, State.evaluatePause_eq, State.setFree]

theorem sourcesChange_finishRecord (s : State) (p : PortNo) (a : AwardRecord) (moved : Nat) :
    s.SourcesChange c (s.finishRecord p a moved) := by
  have hfree : ∀ t : State, (t.freeReserved p).sources = t.sources ∧ (t.freeReserved p).pool = t.pool := fun t => by
    unfold State.freeReserved; split <;> exact ⟨rfl, rfl⟩
  unfold State.finishRecord
  dsimp only
  refine State.SourcesChange.trans (sourcesChange_of_same ?_ ?_) (sourcesChange_returnRecord _ _)
  · rw [(hfree _).1]; split <;> simp
  · rw [(hfree _).2]; split <;> simp

theorem sourcesChange_lapseRecord (s : State) (p : PortNo) (a : AwardRecord) :
    s.SourcesChange c (s.lapseRecord p a) := by
  have htell : ∀ t : State, (t.tellLapse p a).sources = t.sources ∧ (t.tellLapse p a).pool = t.pool := fun t => by
    unfold State.tellLapse; split <;> simp
  unfold State.lapseRecord
  dsimp only
  refine State.SourcesChange.trans ?_ (sourcesChange_ladder _ p)
  refine ((sourcesChange_of_same (s := s) (t := s.mapPort p (fun P => P.removeAward a.bid.tag)) rfl rfl).trans
    (sourcesChange_returnRecord _ a.bid)).trans (sourcesChange_of_same ?_ ?_)
  · rw [State.count_sources, State.reportFault_sources, (htell _).1]
  · rw [State.count_pool, State.reportFault_pool, (htell _).2]

theorem sourcesChange_strand (s : State) (p : PortNo) : s.SourcesChange c (s.strand p) := by
  unfold State.strand
  refine ((sourcesChange_of_same (s := s) (t := s.mapPort p (fun P => { P with stranded := true })) rfl rfl).trans
    (sourcesChange_declineQueues _ p .portDown)).trans (sourcesChange_of_same ?_ ?_)
  · simp [State.closeRun]
  · simp [State.closeRun]

theorem sourcesChange_changeMode (s : State) (p : PortNo) (m : Mode) : s.SourcesChange c (s.changeMode p m) := by
  have hoff : s.SourcesChange c (((s.declineQueues p .portOff).closeRun p).setMode p .off) :=
    (sourcesChange_declineQueues s p .portOff).trans (sourcesChange_of_same rfl rfl)
  unfold State.changeMode
  split
  · exact sourcesChange_refl s
  · exact (sourcesChange_dropRecords s p).trans (sourcesChange_of_same rfl rfl)
  · exact hoff
  · exact hoff
  · exact sourcesChange_of_same rfl rfl

theorem sourcesChange_applyCommit (s : State) (p : PortNo) : s.SourcesChange c (s.applyCommit p) := by
  by_cases h : (s.port p).commitStatus = .pending
  · rw [State.applyCommit_eq h]
    exact (sourcesChange_declineRecords s p .allotmentWithdrawn _).trans (sourcesChange_of_same rfl rfl)
  · rw [State.applyCommit_of_not_pending h]
    exact sourcesChange_refl s

theorem sourcesChange_takeForget (s : State) : s.SourcesChange c s.takeForget := by
  have hfold : ∀ (ps : List PortNo) (t : State), t.SourcesChange c
      (ps.foldl (fun s p => if (s.port p).mode = .rehearsal then s else s.dropRecords p) t) := fun ps => by
    induction ps with
    | nil => exact sourcesChange_refl
    | cons p ps ih =>
      intro t
      refine State.SourcesChange.trans ?_ (ih _)
      dsimp only
      split
      · exact sourcesChange_refl t
      · exact sourcesChange_dropRecords t p
  exact (hfold ascending s).trans (sourcesChange_of_same (State.pushSwitch_sources _ _) (State.pushSwitch_pool _ _))

theorem sourcesChange_mapPort (s : State) (p : PortNo) (f : Port → Port) : s.SourcesChange c (s.mapPort p f) :=
  sourcesChange_of_same rfl rfl

/-- What a change of the bid state does to the source map and the marks. -/
theorem sourcesChange_of_bidChange {s t : State} (h : BidChange c s t) : s.SourcesChange c t := by
  cases h with
  | same h => exact sourcesChange_of_same h.sources h.pool
  | elapse n => exact sourcesChange_of_same rfl rfl
  | counters p f => exact sourcesChange_mapPort s p _
  | accept b e hoff hcheck => exact (sourcesChange_acceptBid s b e hcheck).trans (sourcesChange_ladder _ _)
  | withdraw p k tag b hfind =>
    exact (sourcesChange_of_same (s := s) (t := s.setPort p ((s.port p).removeQueued k tag)) rfl rfl).trans (sourcesChange_returnRecord _ b)
  | finish p a moved hmode ha => exact (sourcesChange_finishRecord s p a moved).trans (sourcesChange_ladder _ p)
  | testFinish p a moved hmode ha =>
    refine (sourcesChange_finishRecord s p a moved).trans ?_
    unfold State.afterTestFinish
    split
    · exact State.rehearsalOpportunities_keeps (I := fun t => State.SourcesChange c _ t)
        (fun t p h => h.trans (sourcesChange_ladder t p)) (sourcesChange_refl _)
    · exact sourcesChange_ladder _ p
  | lapse p a ha => exact sourcesChange_lapseRecord s p a
  | gradeUp p g hc hg =>
    unfold State.gradeUp
    dsimp only
    split
    · exact ((sourcesChange_mapPort s p _).trans (sourcesChange_mapPort _ p _)).trans (sourcesChange_ladder _ p)
    · exact (sourcesChange_mapPort s p _).trans (sourcesChange_mapPort _ p _)
  | gradeStay p hc hbefore => exact sourcesChange_mapPort s p _
  | gradeFall p hc hbefore =>
    unfold State.gradeFall
    dsimp only
    split
    · exact (sourcesChange_mapPort s p _).trans (sourcesChange_strand _ p)
    · exact (sourcesChange_mapPort s p _).trans (sourcesChange_mapPort _ p _)
  | strand p htimer => exact (sourcesChange_mapPort s p _).trans (sourcesChange_strand _ p)
  | forget => exact sourcesChange_takeForget s
  | accrual p hc =>
    exact ((sourcesChange_applyCommit s p).trans (sourcesChange_mapPort _ p _)).trans (sourcesChange_ladder _ p)
  | closeRun p => exact sourcesChange_mapPort s p _
  | settings p pb b x hc hw =>
    unfold State.storeSettings
    dsimp only
    split
    · exact (sourcesChange_mapPort s p _).trans (sourcesChange_ladder _ p)
    · exact sourcesChange_mapPort s p _
  | mode p pb mb m hc hm =>
    unfold State.acceptMode
    dsimp only
    refine State.SourcesChange.trans ?_ (sourcesChange_afterFreeing _ _)
    split
    · exact (sourcesChange_changeMode s p m).trans (sourcesChange_ladder _ p)
    · exact sourcesChange_changeMode s p m
  | flush p => exact sourcesChange_declineQueues s p .flushed
  | source e eb b x hc hx hlimit =>
    refine ⟨fun d => ?_, .inl ⟨rfl, rfl⟩⟩
    rw [State.source_setSource]
    split
    · subst_vars; exact .single (.store _ x eb b rfl hx hlimit)
    · exact .refl
  | stage p k x hfree hx hlock => exact sourcesChange_mapPort s p _
  | commit m hok => exact sourcesChange_of_same (by rw [State.acceptCommit_eq]) (by rw [State.acceptCommit_eq])
  | abort p =>
    unfold State.abortPort
    split
    · exact sourcesChange_of_same rfl rfl
    · exact sourcesChange_refl s
  | lock p k pb cb hc hfree hvalid hprot => exact sourcesChange_mapPort s p _
  | marks l h hlt hle =>
    refine ⟨fun e => by rw [State.source_congr (State.evaluatePause_sources _)]; exact .refl, .inr ?_⟩
    rw [State.evaluatePause_eq]
    exact ⟨hlt, hle⟩
  | readLog =>
    exact (sourcesChange_of_same (s := s) (t := { s with log := s.log.afterRead }) rfl rfl).trans (sourcesChange_afterFreeing _ _)
  | warm =>
    refine State.SourcesChange.trans (t := s.warmValues) ⟨fun e => ?_, .inl ⟨rfl, rfl⟩⟩ (sourcesChange_afterFreeing _ _)
    have hwarm : s.warmValues.source e = { s.source e with outstanding := (s.source e).outstanding - (s.source e).outstanding } := by
      rw [Nat.sub_self]; simp [State.source, State.warmValues, SourceEntry.warm]
    rw [hwarm]
    exact .single (.release _ _)

/-- The fields that the host writes change by SOURCE-SET only (R39). -/
theorem sourceChanges_written {x y : SourceEntry} (h : SourceChanges c x y) :
    y = { x with outstanding := y.outstanding } ∨ ∃ eb b, c = .sourceSet eb b := by
  induction h with
  | refl => exact .inl rfl
  | tail _ hstep ih =>
    cases hstep with
    | release n => exact ih.imp_left fun h => by rw [h]
    | take hlt => exact ih.imp_left fun h => by rw [h]
    | store y eb b hc hout hlimit => exact .inr ⟨eb, b, hc⟩

/-- The ranges of Table 3.1 are kept: an entry at its limit accepts no bid (R39, R51). -/
theorem sourceChange_inRange {x y : SourceEntry} (hchange : SourceChange c x y) (h : x.InRange) : y.InRange := by
  obtain ⟨hone, hmax, hout⟩ := h
  cases hchange with
  | release n => exact ⟨hone, hmax, (Nat.sub_le _ _).trans hout⟩
  | take hlt => exact ⟨hone, hmax, hlt.trans_le hmax⟩
  | store y eb b hc hkeep hlimit => exact ⟨hlimit.1, hlimit.2, hkeep ▸ hout⟩

end

/-! ## The whole state -/

/-- A chain of changes of the bid state is, at each port, a chain of changes of that port. -/
theorem portsChange_of_bidChanges {c : Instr} {s t : State} (h : BidChanges c s t) : s.PortsChange c t := by
  induction h with
  | refl => exact portsChange_refl s
  | tail _ hstep ih => exact ih.trans (portsChange_of_bidChange hstep)

theorem sourcesChange_of_bidChanges {c : Instr} {s t : State} (h : BidChanges c s t) : s.SourcesChange c t := by
  induction h with
  | refl => exact sourcesChange_refl s
  | tail _ hstep ih => exact ih.trans (sourcesChange_of_bidChange hstep)

/-- Settles O16: each field changes by one kind of change only, which carries the command. -/
theorem onlyItsCommandChangesAField : Obligations.OnlyItsCommandChangesAField := by
  unfold Obligations.OnlyItsCommandChangesAField
  intro c s t h hc
  have hchanges := bidChanges_exec h hc
  have hport : ∀ p, PortChanges c p (s.port p) (t.port p) := portsChange_of_bidChanges hchanges
  refine ⟨fun p hp => ?_, fun hm p => ?_, fun p hg => ?_, fun hs p => ?_, fun hs e => ?_, fun hl p k => ?_⟩
  · exact (portChanges_contracts_locks (hport p)).1.resolve_right hp
  · exact (portChanges_keepsConfiguration (hport p)).mode.resolve_right fun ⟨pb, m, h⟩ => hm pb m h
  · exact (portChanges_keepsConfiguration (hport p)).grade.resolve_right fun ⟨g, h⟩ => hg g h
  · exact (portChanges_keepsConfiguration (hport p)).settings.resolve_right fun ⟨pb, b, h⟩ => hs pb b h
  · exact (sourceChanges_written ((sourcesChange_of_bidChanges hchanges).source e)).resolve_right
      fun ⟨eb, b, h⟩ => hs eb b h
  · exact Port.lockCell_congr ((portChanges_contracts_locks (hport p)).2.resolve_right fun ⟨pb, cb, h⟩ => hl pb cb h) k

end Sys2Proof.Machine
end

section
/-! PROOFS. Every record is free, queued or awarded, and the outstanding counts count the held ones (O9): the books of
the part, with the records in hand that have left their place and are on their way back to the pool. -/

namespace Sys2Proof.Machine

/-! ## The ports one by one -/

/-- A port stands at one place of the list of ports, and an update of it writes that place only. -/
theorem State.ports_split (s : State) (p : PortNo) :
    ∃ before behind, s.ports.toList = before ++ s.port p :: behind
      ∧ ∀ P, (s.setPort p P).ports.toList = before ++ P :: behind := by
  have hset : ∀ P, (s.setPort p P).ports.toList = s.ports.toList.take p ++ P :: s.ports.toList.drop (p + 1) := fun P => by
    have hlength : p.val < s.ports.toList.length := by simp
    have hlist : (s.setPort p P).ports.toList = s.ports.toList.set p P := by simp [State.setPort, Vector.toList_set]
    rw [hlist, List.set_eq_take_append_cons_drop, if_pos hlength]
  refine ⟨_, _, ?_, hset⟩
  rw [← hset, State.setPort_port]

/-- The records of one port among those of the part. -/
theorem State.records_setPort (s : State) (p : PortNo) :
    ∃ others, s.records.Perm ((s.port p).records ++ others) ∧ ∀ P, (s.setPort p P).records.Perm (P.records ++ others) := by
  obtain ⟨before, behind, hs, hset⟩ := s.ports_split p
  have hperm : ∀ P : Port, ((before ++ P :: behind).flatMap Port.records).Perm
      (P.records ++ (before.flatMap Port.records ++ behind.flatMap Port.records)) := fun P => by
    rw [List.flatMap_append, List.flatMap_cons, ← List.append_assoc, ← List.append_assoc]
    exact List.perm_append_comm.append_right _
  refine ⟨before.flatMap Port.records ++ behind.flatMap Port.records, ?_, fun P => ?_⟩
  · rw [State.records, hs]; exact hperm _
  · rw [State.records, hset]; exact hperm P

theorem State.records_congr {s t : State} (h : t.ports = s.ports) : t.records = s.records := by
  rw [State.records, State.records, h]

/-- A part whose ports hold the same records port by port holds the same records. -/
theorem State.records_of_ports {s t : State} (h : ∀ p, (t.port p).records = (s.port p).records) :
    t.records = s.records := by
  have hlists : t.ports.toList.map Port.records = s.ports.toList.map Port.records := by
    apply List.ext_getElem
    · simp
    · intro i hi _
      have hlt : i < 16 := by simpa using hi
      simpa [State.port] using h ⟨i, hlt⟩
  rw [State.records, State.records, List.flatMap_def, List.flatMap_def, hlists]

/-! ## The books -/

/-- The free count and the outstanding counts agree with the held records and those in hand (R44, R45). -/
structure State.Holding (s : State) (rs : List BidRecord) : Prop where
  total : s.pool.free + (s.records ++ rs).length = 2048
  counts : ∀ e, (s.source e).outstanding = (s.records ++ rs).countP (fun b => b.source == e)

theorem State.holding_nil (s : State) : s.Holding [] ↔ s.RecordsAccounted := by
  constructor
  · rintro ⟨htotal, hcounts⟩
    rw [List.append_nil] at htotal
    exact ⟨htotal, fun e => by rw [hcounts e, List.append_nil]⟩
  · rintro ⟨htotal, hcounts⟩
    exact ⟨by rw [List.append_nil]; exact htotal, fun e => by rw [List.append_nil]; exact hcounts e⟩

section
variable {s t : State} {rs qs : List BidRecord}

/-- Books with the same counts and the same records, held or in hand. -/
theorem State.Holding.of_perm (h : s.Holding rs) (hfree : t.pool.free = s.pool.free) (hsources : t.sources = s.sources)
    (hperm : (t.records ++ qs).Perm (s.records ++ rs)) : t.Holding qs := by
  obtain ⟨htotal, hcounts⟩ := h
  refine ⟨by rw [hfree, hperm.length_eq]; exact htotal, fun e => ?_⟩
  rw [State.source_congr hsources, hcounts, hperm.countP_eq]

theorem State.Holding.of_same (h : s.Holding rs) (hports : t.ports = s.ports) (hsources : t.sources = s.sources)
    (hpool : t.pool = s.pool) : t.Holding rs :=
  h.of_perm (by rw [hpool]) hsources (by rw [State.records_congr hports])

/-- An update of one port that moves records between the port and the hand. -/
theorem State.Holding.setPort (h : s.Holding rs) {p : PortNo} {P : Port}
    (hperm : ((s.port p).records ++ rs).Perm (P.records ++ qs)) : (s.setPort p P).Holding qs := by
  obtain ⟨others, hs, hset⟩ := s.records_setPort p
  refine h.of_perm rfl rfl ?_
  have hswap : ∀ xs ys : List BidRecord, (xs ++ others ++ ys).Perm (others ++ (xs ++ ys)) := fun xs ys => by
    rw [← List.append_assoc]
    exact List.perm_append_comm.append_right ys
  calc ((s.setPort p P).records ++ qs).Perm (P.records ++ others ++ qs) := (hset P).append_right qs
    _ |>.Perm (others ++ (P.records ++ qs)) := hswap _ _
    _ |>.Perm (others ++ ((s.port p).records ++ rs)) := hperm.symm.append_left others
    _ |>.Perm ((s.port p).records ++ others ++ rs) := (hswap _ _).symm
    _ |>.Perm (s.records ++ rs) := hs.symm.append_right rs

theorem State.Holding.mapPort (h : s.Holding rs) (p : PortNo) {f : Port → Port}
    (hrecords : ∀ P : Port, (f P).records = P.records) : (s.mapPort p f).Holding rs :=
  h.setPort (by rw [hrecords])

/-- Records that return to the pool leave the hand (R46). -/
theorem State.Holding.returned (h : s.Holding (rs ++ qs)) (hrecords : t.records = s.records)
    (hfree : t.pool.free = s.pool.free + rs.length)
    (hsource : ∀ e, t.source e = { s.source e with
      outstanding := (s.source e).outstanding - rs.countP (fun b => b.source == e) }) : t.Holding qs := by
  obtain ⟨htotal, hcounts⟩ := h
  refine ⟨?_, fun e => ?_⟩
  · rw [hfree, hrecords]
    simp only [List.length_append] at htotal ⊢
    omega
  · have hcount := hcounts e
    rw [hsource, hrecords]
    simp only [List.countP_append] at hcount ⊢
    omega

theorem State.Holding.returnRecords (h : s.Holding (rs ++ qs)) : (s.returnRecords rs).Holding qs := by
  obtain ⟨hfree, -, -, hsource, -⟩ := s.returnRecords_spec rs
  exact h.returned (State.records_congr (State.returnRecords_ports s rs)) hfree hsource

theorem State.Holding.returnRecord {b : BidRecord} (h : s.Holding (b :: qs)) : (s.returnRecord b).Holding qs :=
  State.Holding.returnRecords (rs := [b]) h

theorem Port.records_counters (P : Port) (x : CounterPair) : ({ P with counters := x } : Port).records = P.records := rfl

theorem State.records_declineRecords (s : State) (p : PortNo) (cause : Cause) (rs : List BidRecord) :
    (s.declineRecords p cause rs).records = s.records := State.records_of_ports fun q => by
  rw [State.port_declineRecords]
  split
  · subst_vars; exact Port.records_counters _ _
  · rfl

theorem State.Holding.declineRecords (h : s.Holding (rs ++ qs)) (p : PortNo) (cause : Cause) :
    (s.declineRecords p cause rs).Holding qs := by
  obtain ⟨hfree, -, -, hsource, -⟩ := s.declineRecords_spec p cause rs
  exact h.returned (s.records_declineRecords p cause rs) hfree hsource

/-! ## The operations -/

theorem State.Holding.declineQueues (h : s.Holding []) (p : PortNo) (cause : Cause) :
    (s.declineQueues p cause).Holding [] := by
  refine State.Holding.declineRecords (rs := (s.port p).queued) ?_ p cause
  exact h.setPort (by
    rw [List.append_nil, List.append_nil, Port.records_clearQueues]
    exact List.perm_append_comm)

theorem State.Holding.dropRecords (h : s.Holding []) (p : PortNo) : (s.dropRecords p).Holding [] := by
  rw [State.dropRecords_eq]
  refine State.Holding.returnRecords ?_
  exact h.setPort (by rw [Port.records_dropped, List.nil_append])

theorem State.Holding.ladder (h : s.Holding rs) (p : PortNo) : (s.ladder p).Holding rs := by
  refine State.ladder_keeps (I := fun t => t.Holding rs) (fun t h => ?_) (fun t x b rest h haward => ?_) h
  · exact h.mapPort p fun _ => rfl
  · rw [State.award_eq haward.queue]
    refine State.Holding.of_same (s := t.setPort p ((t.port p).award x b rest t.timeBase)) (h.setPort ?_) (by simp) (by simp) (by simp)
    exact ((Port.records_award (t.port p) t.timeBase haward.queue).append_right rs).symm

theorem State.Holding.afterFreeing (h : s.Holding rs) (full : Bool) : (s.afterFreeing full).Holding rs :=
  State.afterFreeing_keeps (I := fun t => t.Holding rs) (fun _ p h => h.ladder p) full h

/-- An accepted bid takes a free record (R53). -/
theorem State.Holding.acceptBid (h : s.Holding []) {b : BidBody} {e : EntryNo} (hfree : 0 < s.pool.free) :
    (s.acceptBid b e).Holding [] := by
  have hperm := (s.port b.port).records_accept (s.source e).cls (s.bidRecord b e)
  obtain ⟨others, hs, hset⟩ := s.records_setPort b.port
  have hrecords : (s.acceptBid b e).records.Perm (s.bidRecord b e :: s.records) := by
    have hports : (s.acceptBid b e).ports = (s.setPort b.port (((s.port b.port).mapRow (s.source e).cls
        (fun r => { r with queue := r.queue ++ [s.bidRecord b e] })).count .arrivals (some (s.source e).cls) 1)).ports := by
      simp [State.acceptBid, State.mapPort]
    rw [State.records_congr hports]
    refine (hset _).trans ?_
    exact (hperm.append_right others).trans (hs.symm.cons _)
  have hpool : (s.acceptBid b e).pool.free = s.pool.free - 1 := by
    simp [State.acceptBid, State.evaluatePause_eq, State.setFree]
  have hsource : ∀ d, (s.acceptBid b e).source d
      = if d = e then { s.source e with outstanding := (s.source e).outstanding + 1 } else s.source d := fun d => by
    unfold State.acceptBid
    dsimp only
    rw [State.source_congr (State.evaluatePause_sources _)]
    exact State.source_setSource _ e d _
  obtain ⟨htotal, hcounts⟩ := h
  rw [List.append_nil] at htotal
  refine ⟨?_, fun d => ?_⟩
  · rw [hpool, List.append_nil, hrecords.length_eq, List.length_cons]
    omega
  · have hcount := hcounts d
    rw [List.append_nil] at hcount
    have hcls : (s.bidRecord b e).source = e := rfl
    rw [hsource, List.append_nil, hrecords.countP_eq, List.countP_cons, hcls, ← hcount]
    by_cases hd : d = e
    · simp [hd]
    · simp [hd, Ne.symm hd]

/-- A record that leaves an award list comes into the hand (R83). -/
theorem State.Holding.removeAward (h : s.Holding []) {p : PortNo} {a : AwardRecord} (ha : (s.port p).Awarded a) {P : Port}
    (hP : P.records = ((s.port p).removeAward a.bid.tag).records) : (s.setPort p P).Holding [a.bid] :=
  h.setPort (by
    rw [List.append_nil, hP]
    exact ((s.port p).records_removeAward ha).trans (List.perm_append_comm (l₁ := [a.bid])))

theorem State.freeReserved_same (s : State) (p : PortNo) :
    (s.freeReserved p).ports = s.ports ∧ (s.freeReserved p).sources = s.sources ∧ (s.freeReserved p).pool = s.pool := by
  unfold State.freeReserved
  split <;> exact ⟨rfl, rfl, rfl⟩

theorem Port.records_finished (P : Port) (a : AwardRecord) (moved : Nat) :
    (P.finished a moved).records = (P.removeAward a.bid.tag).records := by
  unfold Port.finished
  dsimp only
  split
  · exact Port.records_mapRow (Row.refund_queue _ _)
  · rfl

theorem State.Holding.finishRecord (h : s.Holding []) {p : PortNo} {a : AwardRecord} (ha : (s.port p).Awarded a)
    (moved : Nat) : (s.finishRecord p a moved).Holding [] := by
  have key : ∀ t : State, t.ports = s.ports → t.sources = s.sources → t.pool = s.pool →
      (((t.mapPort p (fun P => P.finished a moved)).freeReserved p).returnRecord a.bid).Holding [] :=
    fun t hports hsources hpool => by
      have hport : t.port p = s.port p := State.port_congr hports p
      obtain ⟨hp, hs, hu⟩ := State.freeReserved_same (t.mapPort p (fun P => P.finished a moved)) p
      refine State.Holding.returnRecord (State.Holding.of_same ?_ hp hs hu)
      refine State.Holding.removeAward (h.of_same hports hsources hpool) (hport ▸ ha) ?_
      exact Port.records_finished _ a moved
  unfold State.finishRecord
  dsimp only
  split
  · exact key _ (by simp) (by simp) (by simp)
  · exact key s rfl rfl rfl

theorem State.tellLapse_same (s : State) (p : PortNo) (a : AwardRecord) :
    (s.tellLapse p a).ports = s.ports ∧ (s.tellLapse p a).sources = s.sources ∧ (s.tellLapse p a).pool = s.pool := by
  unfold State.tellLapse
  split <;> simp

theorem State.Holding.count (h : s.Holding rs) (p : PortNo) (ev : CounterEvent) (k : Option ClassNo) (n : Nat) :
    (s.count p ev k n).Holding rs :=
  h.mapPort p fun _ => rfl

theorem State.Holding.lapseRecord (h : s.Holding []) {p : PortNo} {a : AwardRecord} (ha : (s.port p).Awarded a) :
    (s.lapseRecord p a).Holding [] := by
  unfold State.lapseRecord
  dsimp only
  refine State.Holding.ladder (State.Holding.count ?_ _ _ _ _) p
  obtain ⟨hp, hs, hu⟩ := State.tellLapse_same ((s.mapPort p (fun P => P.removeAward a.bid.tag)).returnRecord a.bid) p a
  refine State.Holding.of_same (State.Holding.of_same ?_ hp hs hu) (by simp) (by simp) (by simp)
  exact State.Holding.returnRecord (h.removeAward ha rfl)

theorem State.Holding.closeRun (h : s.Holding rs) (p : PortNo) : (s.closeRun p).Holding rs :=
  h.mapPort p fun _ => rfl

theorem State.Holding.strand (h : s.Holding []) (p : PortNo) : (s.strand p).Holding [] := by
  unfold State.strand
  have hflag : (s.mapPort p (fun P => { P with stranded := true })).Holding [] := h.mapPort p fun _ => rfl
  exact ((hflag.declineQueues p .portDown).closeRun p).of_same (by simp) (by simp) (by simp)

theorem State.Holding.changeMode (h : s.Holding []) (p : PortNo) (m : Mode) : (s.changeMode p m).Holding [] := by
  have hmode : ∀ {t : State} {n : Mode}, t.Holding [] → (t.setMode p n).Holding [] := fun h => h.mapPort p fun _ => rfl
  have hoff := hmode (n := .off) ((h.declineQueues p .portOff).closeRun p)
  unfold State.changeMode
  split
  · exact h
  · have hdropped : ∀ n, ((s.dropRecords p).setReserved n).Holding [] := fun n =>
      (h.dropRecords p).of_same rfl rfl rfl
    exact hmode (hdropped _)
  · exact hoff
  · exact hoff
  · exact hmode h

theorem State.Holding.applyCommit (h : s.Holding []) (p : PortNo) : (s.applyCommit p).Holding [] := by
  by_cases hpending : (s.port p).commitStatus = .pending
  · obtain ⟨hfree, -, -, hsource, -⟩ := s.declineRecords_spec p .allotmentWithdrawn (s.port p).withdrawnRecords
    have hrecords : (s.applyCommit p).records = (s.setPort p (s.port p).committed).records :=
      State.records_of_ports fun q => by
        rw [State.port_applyCommit hpending, State.port_setPort]
        split
        · exact Port.records_counters _ _
        · rfl
    have hset : (s.setPort p (s.port p).committed).Holding ((s.port p).withdrawnRecords ++ []) := h.setPort (by
      rw [List.append_nil, List.append_nil]
      exact (s.port p).records_committed.trans List.perm_append_comm)
    refine hset.returned hrecords ?_ fun e => ?_
    · rw [State.applyCommit_eq hpending]; exact hfree
    · rw [State.applyCommit_eq hpending]; exact hsource e
  · rw [State.applyCommit_of_not_pending hpending]
    exact h

theorem State.Holding.takeForget (h : s.Holding []) : s.takeForget.Holding [] := by
  have hfold : ∀ (ps : List PortNo) {t : State}, t.Holding [] →
      (ps.foldl (fun s p => if (s.port p).mode = .rehearsal then s else s.dropRecords p) t).Holding [] := fun ps => by
    induction ps with
    | nil => exact id
    | cons p ps ih =>
      intro t ht
      refine ih ?_
      dsimp only
      split
      · exact ht
      · exact ht.dropRecords p
  exact (hfold ascending h).of_same (State.pushSwitch_ports _ _) (State.pushSwitch_sources _ _) (State.pushSwitch_pool _ _)

theorem State.Holding.gradeUp (h : s.Holding []) (p : PortNo) (before g : Grade) : (s.gradeUp p before g).Holding [] := by
  have hup : (s.mapPort p (fun P => { P.recomputeShares g with holdDownTimer := none, stranded := false })).Holding [] :=
    h.mapPort p fun P => P.records_recomputeShares g
  unfold State.gradeUp
  dsimp only
  split
  · exact hup.ladder p
  · exact hup

end

/-- No record is held after a warm reset, and all are free (R48). -/
theorem warmValues_records (s : State) : s.warmValues.records = [] := by
  have hnone : ∀ P ∈ s.warmValues.ports.toList, P.records = [] := fun P hP => by
    obtain ⟨Q, -, rfl⟩ := List.mem_map.mp (Vector.toList_map ▸ hP)
    exact Q.records_warm
  exact List.flatMap_eq_nil_iff.mpr hnone

theorem warmValues_holding (s : State) : s.warmValues.Holding [] := by
  refine ⟨by rw [warmValues_records]; rfl, fun e => ?_⟩
  rw [warmValues_records]
  simp [State.source, State.warmValues, SourceEntry.warm]

/-- Every change of the bid state keeps the books. -/
theorem bidChange_holding {c : Instr} {s t : State} (hchange : BidChange c s t) (h : s.Holding []) : t.Holding [] := by
  cases hchange with
  | same hsame => exact h.of_same hsame.ports hsame.sources hsame.pool
  | elapse n =>
    refine h.of_perm rfl rfl ?_
    rw [State.records_of_ports (s := s) fun p => (congrArg Port.records (s.port_elapse n p)).trans ((s.port p).records_elapse n)]
  | counters p f => exact h.mapPort p fun _ => rfl
  | accept b e hoff hcheck =>
    obtain ⟨-, -, -, -, hfree⟩ := checkFrom2_accept hcheck
    exact (h.acceptBid hfree).ladder _
  | withdraw p k tag b hfind =>
    refine State.Holding.returnRecord (h.setPort ?_)
    rw [List.append_nil]
    exact ((s.port p).records_removeQueued hfind).trans (List.perm_append_comm (l₁ := [b]))
  | finish p a moved hmode ha => exact (h.finishRecord ha moved).ladder p
  | testFinish p a moved hmode ha =>
    unfold State.afterTestFinish
    split
    · exact State.rehearsalOpportunities_keeps (I := fun t => t.Holding []) (fun _ p h => h.ladder p)
        (h.finishRecord ha moved)
    · exact (h.finishRecord ha moved).ladder p
  | lapse p a ha => exact h.lapseRecord ha
  | gradeUp p g hc hg =>
    refine State.Holding.gradeUp ?_ p _ g
    exact h.mapPort p fun _ => rfl
  | gradeStay p hc hbefore => exact h.mapPort p fun _ => rfl
  | gradeFall p hc hbefore =>
    unfold State.gradeFall
    dsimp only
    split
    · refine State.Holding.strand ?_ p
      exact h.mapPort p fun _ => rfl
    · refine State.Holding.mapPort ?_ p fun _ => rfl
      exact h.mapPort p fun _ => rfl
  | strand p htimer =>
    refine State.Holding.strand ?_ p
    exact h.mapPort p fun _ => rfl
  | forget => exact h.takeForget
  | accrual p hc =>
    refine State.Holding.ladder ?_ p
    exact (h.applyCommit p).mapPort p fun P => P.records_accrue
  | closeRun p => exact h.closeRun p
  | settings p pb b x hc hw =>
    unfold State.storeSettings
    dsimp only
    split
    · refine State.Holding.ladder ?_ p
      exact h.mapPort p fun _ => rfl
    · exact h.mapPort p fun _ => rfl
  | mode p pb mb m hc hm =>
    unfold State.acceptMode
    dsimp only
    refine State.Holding.afterFreeing ?_ _
    split
    · exact (h.changeMode p m).ladder p
    · exact h.changeMode p m
  | flush p => exact h.declineQueues p .flushed
  | source e eb b x hc hx hlimit =>
    refine ⟨h.total, fun d => ?_⟩
    rw [State.source_setSource]
    split
    · subst_vars; exact hx.trans (h.counts _)
    · exact h.counts d
  | stage p k x hfree hx hlock => exact h.mapPort p fun _ => rfl
  | commit m hok =>
    refine h.of_perm (by rw [State.acceptCommit_eq]) (by rw [State.acceptCommit_eq]) ?_
    have hrecords : (s.acceptCommit m).records = s.records := State.records_of_ports fun p => by
      rw [State.port_acceptCommit]; rfl
    rw [hrecords]
  | abort p =>
    unfold State.abortPort
    split
    · exact State.Holding.of_same (h.mapPort p (f := fun P => { P with commitStatus := .aborted }) fun _ => rfl) rfl rfl rfl
    · exact h
  | lock p k pb cb hc hfree hvalid hprot => exact h.mapPort p fun _ => rfl
  | marks l u hlt hle =>
    refine h.of_perm ?_ (by simp) (by rw [State.records_congr (State.evaluatePause_ports _)]; rfl)
    rw [State.evaluatePause_eq]
  | readLog =>
    refine State.Holding.afterFreeing ?_ _
    exact h.of_same rfl rfl rfl
  | warm => exact State.Holding.afterFreeing (warmValues_holding s) _

theorem reset_holding (q : List Instr) : ({ State.reset with pending := q } : State).Holding [] := by
  have hrecords : ({ State.reset with pending := q } : State).records = [] :=
    List.flatMap_eq_nil_iff.mpr fun P hP => by
      have hP : P ∈ List.replicate 16 Port.cold := by simpa [State.reset] using hP
      rw [List.eq_of_mem_replicate hP]
      exact Port.records_cold
  refine ⟨by rw [hrecords]; rfl, fun e => ?_⟩
  rw [hrecords]
  simp [State.source, State.reset, SourceEntry.cold]

/-- Settles O9: the books with no record in hand are the law, and every change of the bid state keeps them. -/
theorem everyRecordIsAccounted : Obligations.EveryRecordIsAccounted :=
  keptByStep_of_bidChange
    (fun _ s t hchange h => t.holding_nil.mp (bidChange_holding hchange (s.holding_nil.mpr h)))
    fun q => (State.holding_nil _).mp (reset_holding q)

end Sys2Proof.Machine
end

section
/-! PROOFS. The rehearsal log has its places (O15): one place is reserved for each awarded record of a port in REHEARSAL,
with the places in hand whose record has left its award list. -/

namespace Sys2Proof.Machine

/-! ## The reserved places -/

/-- The places of the log that the awards of the port have reserved (R160). -/
def Port.reservedPlaces (P : Port) : Nat := if P.mode = .rehearsal then P.awards.length else 0

theorem Port.reservedPlaces_of_rehearsal {P : Port} (h : P.mode = .rehearsal) : P.reservedPlaces = P.awards.length :=
  if_pos h

theorem Port.reservedPlaces_of_other {P : Port} (h : P.mode ≠ .rehearsal) : P.reservedPlaces = 0 := if_neg h

theorem Port.reservedPlaces_congr {P Q : Port} (hmode : Q.mode = P.mode) (hawards : Q.awards.length = P.awards.length) :
    Q.reservedPlaces = P.reservedPlaces := by rw [Port.reservedPlaces, Port.reservedPlaces, hmode, hawards]

theorem State.rehearsalAwards_eq (s : State) : s.rehearsalAwards = (s.ports.toList.map Port.reservedPlaces).sum := rfl

theorem State.rehearsalAwards_setPort (s : State) (p : PortNo) :
    ∃ n, s.rehearsalAwards = (s.port p).reservedPlaces + n
      ∧ ∀ P, (s.setPort p P).rehearsalAwards = P.reservedPlaces + n := by
  obtain ⟨before, behind, hs, hset⟩ := s.ports_split p
  have hsum : ∀ P : Port, ((before ++ P :: behind).map Port.reservedPlaces).sum
      = P.reservedPlaces + ((before.map Port.reservedPlaces).sum + (behind.map Port.reservedPlaces).sum) := fun P => by
    simp only [List.map_append, List.map_cons, List.sum_append, List.sum_cons]
    omega
  refine ⟨(before.map Port.reservedPlaces).sum + (behind.map Port.reservedPlaces).sum, ?_, fun P => ?_⟩
  · rw [State.rehearsalAwards_eq, hs]; exact hsum _
  · rw [State.rehearsalAwards_eq, hset]; exact hsum P

theorem State.rehearsalAwards_of_ports {s t : State} (h : ∀ p, (t.port p).reservedPlaces = (s.port p).reservedPlaces) :
    t.rehearsalAwards = s.rehearsalAwards := by
  have hlists : t.ports.toList.map Port.reservedPlaces = s.ports.toList.map Port.reservedPlaces := by
    apply List.ext_getElem
    · simp
    · intro i hi _
      have hlt : i < 16 := by simpa using hi
      simpa [State.port] using h ⟨i, hlt⟩
  rw [State.rehearsalAwards_eq, State.rehearsalAwards_eq, hlists]

/-! ## The log's books -/

/-- The log's entries and reserved places fit, and the reserved places are those of the award lists and `n` more. -/
structure State.LogBooks (s : State) (n : Nat) : Prop where
  fits : s.log.entries.length + s.log.reserved ≤ 64
  reserved : s.log.reserved = s.rehearsalAwards + n

theorem State.logBooks_zero (s : State) : s.LogBooks 0 ↔ s.LogAccounted :=
  ⟨fun ⟨hfits, hreserved⟩ => ⟨hfits, hreserved⟩, fun ⟨hfits, hreserved⟩ => ⟨hfits, hreserved⟩⟩

section
variable {s t : State} {n m : Nat}

theorem State.LogBooks.of_ports (h : s.LogBooks n) (hlog : t.log = s.log)
    (hports : ∀ p, (t.port p).reservedPlaces = (s.port p).reservedPlaces) : t.LogBooks n := by
  obtain ⟨hfits, hreserved⟩ := h
  exact ⟨by rw [hlog]; exact hfits, by rw [hlog, State.rehearsalAwards_of_ports hports]; exact hreserved⟩

theorem State.LogBooks.of_same (h : s.LogBooks n) (hlog : t.log = s.log) (hports : t.ports = s.ports) : t.LogBooks n :=
  h.of_ports hlog fun p => by rw [State.port_congr hports]

theorem State.LogBooks.setPort (h : s.LogBooks n) {p : PortNo} {P : Port}
    (hP : (s.port p).reservedPlaces + n = P.reservedPlaces + m) : (s.setPort p P).LogBooks m := by
  obtain ⟨hfits, hreserved⟩ := h
  obtain ⟨k, hs, hset⟩ := s.rehearsalAwards_setPort p
  refine ⟨hfits, ?_⟩
  rw [hset]
  show s.log.reserved = _
  omega

theorem State.LogBooks.mapPort (h : s.LogBooks n) (p : PortNo) {f : Port → Port}
    (hf : ∀ P : Port, (f P).reservedPlaces = P.reservedPlaces) : (s.mapPort p f).LogBooks n :=
  h.setPort (by rw [hf])

theorem State.LogBooks.returnRecords (h : s.LogBooks n) (rs : List BidRecord) : (s.returnRecords rs).LogBooks n :=
  h.of_same (by simp) (by simp)

theorem State.LogBooks.declineQueues (h : s.LogBooks n) (p : PortNo) (cause : Cause) :
    (s.declineQueues p cause).LogBooks n :=
  h.of_ports (by simp) fun q => by
    rw [State.port_declineQueues]
    split
    · subst_vars; rfl
    · rfl

/-- A place in hand that becomes free (R164). -/
theorem State.LogBooks.setReserved (h : s.LogBooks (n + m)) : (s.setReserved (s.log.reserved - m)).LogBooks n := by
  obtain ⟨hfits, hreserved⟩ := h
  have hawards : (s.setReserved (s.log.reserved - m)).rehearsalAwards = s.rehearsalAwards := rfl
  refine ⟨?_, ?_⟩
  · show s.log.entries.length + (s.log.reserved - m) ≤ 64
    omega
  · rw [hawards]
    show s.log.reserved - m = _
    omega

/-! ## The operations -/

theorem State.writeLog_log (s : State) (en : LogEntry) :
    (s.writeLog en).log = { s.log with entries := s.log.entries ++ [en] } := by
  unfold State.writeLog
  dsimp only
  split
  · rw [State.noticeCause_eq]
  · rfl

theorem State.tellAward_of_rehearsal {p : PortNo} (h : (s.port p).mode = .rehearsal) (x : Selection) (b : BidRecord) :
    s.tellAward p x b
      = (s.writeLog (logEntry .award p b x.charge s.timeBase)).setReserved (s.log.reserved + 1) := by
  simp only [State.tellAward, h]

theorem State.tellAward_of_other {p : PortNo} (h : (s.port p).mode ≠ .rehearsal) (x : Selection) (b : BidRecord) :
    s.tellAward p x b = s.pushSwitch (.award p b.tag) := by
  unfold State.tellAward
  split
  · contradiction
  · rfl

/-- A port in REHEARSAL awards only while two places of the log are free (R62, R160). -/
theorem State.log_free_of_mayAward {p : PortNo} (hmay : s.mayAward p = true) (h : (s.port p).mode = .rehearsal) :
    s.log.entries.length + s.log.reserved + 2 ≤ 64 := by
  have hfull : s.log.full = false := by
    simp only [State.mayAward, h, Bool.and_eq_true, Bool.not_eq_true', beq_self_eq_true, Bool.true_and] at hmay
    exact hmay.2
  have hfree : ¬ 64 - s.log.entries.length - s.log.reserved < 2 := of_decide_eq_false hfull
  omega

theorem State.LogBooks.award (h : s.LogBooks 0) {p : PortNo} {x : Selection} {b : BidRecord} {rest : List BidRecord}
    (haward : s.Awards p x b rest) : (s.award p x).LogBooks 0 := by
  rw [State.award_eq haward.queue]
  set P := (s.port p).award x b rest s.timeBase with hP
  have hmode : P.mode = (s.port p).mode := by rw [hP, Port.award_eq]; rfl
  have hawards : P.awards.length = (s.port p).awards.length + 1 := by rw [hP, Port.award_eq]; simp
  by_cases hr : (s.port p).mode = .rehearsal
  · have hplaces : P.reservedPlaces = (s.port p).reservedPlaces + 1 := by
      rw [Port.reservedPlaces_of_rehearsal (hmode.trans hr), Port.reservedPlaces_of_rehearsal hr, hawards]
    obtain ⟨hfits, hreserved⟩ := h
    obtain ⟨k, hs, hset⟩ := s.rehearsalAwards_setPort p
    have hfree := State.log_free_of_mayAward haward.may hr
    rw [State.tellAward_of_rehearsal (by rw [State.port_setPort_same]; exact hmode.trans hr), State.setPort_log,
      State.setPort_timeBase]
    set en := logEntry .award p b x.charge s.timeBase
    have hlog : (((s.setPort p P).writeLog en).setReserved (s.log.reserved + 1)).log
        = { entries := s.log.entries ++ [en], reserved := s.log.reserved + 1 } := by
      rw [State.setReserved, State.writeLog_log]; rfl
    have hcount : (((s.setPort p P).writeLog en).setReserved (s.log.reserved + 1)).rehearsalAwards
        = P.reservedPlaces + k := by
      rw [← hset P]
      exact State.rehearsalAwards_of_ports fun q => by rw [State.port_congr (s := s.setPort p P) (by simp)]
    refine ⟨?_, ?_⟩
    · rw [hlog]
      simp only [List.length_append, List.length_singleton]
      omega
    · rw [hlog, hcount]
      dsimp only
      omega
  · have hplaces : P.reservedPlaces = (s.port p).reservedPlaces := by
      rw [Port.reservedPlaces_of_other hr, Port.reservedPlaces_of_other (hmode ▸ hr)]
    rw [State.tellAward_of_other (by rw [State.port_setPort_same]; exact hmode ▸ hr)]
    exact State.LogBooks.of_same (s := s.setPort p P) (h.setPort (by rw [hplaces])) rfl rfl

theorem State.LogBooks.closeRun (h : s.LogBooks n) (p : PortNo) : (s.closeRun p).LogBooks n := h.mapPort p fun _ => rfl

theorem State.LogBooks.ladder (h : s.LogBooks 0) (p : PortNo) : (s.ladder p).LogBooks 0 :=
  State.ladder_keeps (I := fun t => t.LogBooks 0) (fun _ h => h.closeRun p) (fun _ _ _ _ h haward => h.award haward) h

theorem State.LogBooks.afterFreeing (h : s.LogBooks 0) (full : Bool) : (s.afterFreeing full).LogBooks 0 :=
  State.afterFreeing_keeps (I := fun t => t.LogBooks 0) (fun _ p h => h.ladder p) full h

theorem Port.awards_removeAward {P : Port} {a : AwardRecord} (ha : P.Awarded a) :
    (P.removeAward a.bid.tag).awards.length + 1 = P.awards.length := by
  have hperm := (P.records_removeAward ha).length_eq
  simp only [Port.records, List.length_append, List.length_map, List.length_cons] at hperm
  have hqueued : (P.removeAward a.bid.tag).queued = P.queued := rfl
  rw [hqueued] at hperm
  omega

/-- The record that leaves the award list of a port in REHEARSAL leaves its place in hand (R164, R165). -/
theorem Port.reservedPlaces_removeAward {P : Port} {a : AwardRecord} (ha : P.Awarded a) :
    P.reservedPlaces = (P.removeAward a.bid.tag).reservedPlaces + if P.mode = .rehearsal then 1 else 0 := by
  have hlength := Port.awards_removeAward ha
  have hmode : (P.removeAward a.bid.tag).mode = P.mode := rfl
  unfold Port.reservedPlaces
  rw [hmode]
  split <;> omega

theorem Port.reservedPlaces_finished (P : Port) (a : AwardRecord) (moved : Nat) :
    (P.finished a moved).reservedPlaces = (P.removeAward a.bid.tag).reservedPlaces := by
  unfold Port.finished
  dsimp only
  split <;> rfl

theorem Port.finished_mode (P : Port) (a : AwardRecord) (moved : Nat) : (P.finished a moved).mode = P.mode := by
  unfold Port.finished
  dsimp only
  split <;> rfl

theorem State.LogBooks.finishRecord (h : s.LogBooks 0) {p : PortNo} {a : AwardRecord} (ha : (s.port p).Awarded a)
    (moved : Nat) : (s.finishRecord p a moved).LogBooks 0 := by
  have key : ∀ t : State, t.ports = s.ports → t.log = s.log →
      (((t.mapPort p (fun P => P.finished a moved)).freeReserved p).returnRecord a.bid).LogBooks 0 :=
    fun t hports hlog => by
      have hport : t.port p = s.port p := State.port_congr hports p
      have hbooks : (t.mapPort p (fun P => P.finished a moved)).LogBooks (if (s.port p).mode = .rehearsal then 1 else 0) :=
        (h.of_same hlog hports).setPort (by
          rw [Port.reservedPlaces_finished, hport, ← Port.reservedPlaces_removeAward ha]; rfl)
      refine State.LogBooks.returnRecords (rs := [a.bid]) ?_
      unfold State.freeReserved
      rw [State.port_mapPort_same, Port.finished_mode, hport]
      by_cases hr : (s.port p).mode = .rehearsal
      · rw [if_pos hr] at hbooks ⊢
        exact State.LogBooks.setReserved (n := 0) (m := 1) hbooks
      · rw [if_neg hr] at hbooks ⊢
        exact hbooks
  unfold State.finishRecord
  dsimp only
  split
  · exact key _ (by simp) (by simp)
  · exact key s rfl rfl

theorem State.LogBooks.lapseRecord (h : s.LogBooks 0) {p : PortNo} {a : AwardRecord} (ha : (s.port p).Awarded a) :
    (s.lapseRecord p a).LogBooks 0 := by
  have hbooks : ((s.mapPort p (fun P => P.removeAward a.bid.tag)).returnRecord a.bid).LogBooks
      (if (s.port p).mode = .rehearsal then 1 else 0) :=
    State.LogBooks.returnRecords (rs := [a.bid]) (h.setPort (Port.reservedPlaces_removeAward ha)) 
  have hmode : (((s.mapPort p (fun P => P.removeAward a.bid.tag)).returnRecord a.bid).port p).mode = (s.port p).mode := by
    rw [State.port_congr (State.returnRecord_ports _ _), State.port_mapPort_same]; rfl
  unfold State.lapseRecord
  dsimp only
  generalize (s.mapPort p (fun P => P.removeAward a.bid.tag)).returnRecord a.bid = u at *
  have htold : (u.tellLapse p a).LogBooks 0 := by
    unfold State.tellLapse
    rw [hmode]
    by_cases hr : (s.port p).mode = .rehearsal
    · rw [if_pos hr] at hbooks ⊢
      obtain ⟨hfits, hreserved⟩ := hbooks
      set en := logEntry .lapse p a.bid a.charge u.timeBase
      have hawards : ((u.writeLog en).setReserved (u.log.reserved - 1)).rehearsalAwards = u.rehearsalAwards :=
        State.rehearsalAwards_of_ports fun q => by rw [State.port_congr (s := u) (by simp)]
      have hlog : ((u.writeLog en).setReserved (u.log.reserved - 1)).log
          = { entries := u.log.entries ++ [en], reserved := u.log.reserved - 1 } := by
        rw [State.setReserved, State.writeLog_log]
      refine ⟨?_, ?_⟩
      · rw [hlog, List.length_append, List.length_singleton]
        dsimp only
        omega
      · rw [hawards, hlog]
        dsimp only
        omega
    · rw [if_neg hr] at hbooks ⊢
      exact hbooks.of_same rfl rfl
  refine State.LogBooks.ladder ?_ p
  exact (htold.of_same (by simp) (by simp)).mapPort p fun _ => rfl

theorem State.LogBooks.strand (h : s.LogBooks 0) (p : PortNo) : (s.strand p).LogBooks 0 := by
  unfold State.strand
  have hflag : (s.mapPort p (fun P => { P with stranded := true })).LogBooks 0 := h.mapPort p fun _ => rfl
  exact ((hflag.declineQueues p .portDown).closeRun p).of_same (by simp) (by simp)

theorem Port.dropped_places (P : Port) : P.dropped.reservedPlaces = 0 := by
  unfold Port.reservedPlaces
  split <;> rfl

/-- The drop of a port's records leaves its reserved places in hand (R105). -/
theorem State.LogBooks.dropRecords (h : s.LogBooks 0) (p : PortNo) :
    (s.dropRecords p).LogBooks (s.port p).reservedPlaces := by
  rw [State.dropRecords_eq]
  exact State.LogBooks.returnRecords (h.setPort (by rw [Port.dropped_places, Nat.zero_add]; rfl)) _

/-- A mode change of a port without reserved places on either side. -/
theorem State.LogBooks.setMode (h : s.LogBooks 0) {p : PortNo} {m : Mode} (hbefore : (s.port p).reservedPlaces = 0)
    (hafter : m = .rehearsal → (s.port p).awards = []) : (s.setMode p m).LogBooks 0 := by
  refine h.setPort ?_
  have hzero : ({ s.port p with mode := m } : Port).reservedPlaces = 0 := by
    by_cases hm : m = .rehearsal
    · rw [Port.reservedPlaces_of_rehearsal hm]
      exact congrArg List.length (hafter hm)
    · exact Port.reservedPlaces_of_other hm
  rw [hbefore, hzero]

/-- A port that may be set to REHEARSAL, and is not in it, has no awarded record (R102). -/
theorem Port.awards_of_not_refuses {P : Port} (hr : P.mode ≠ .rehearsal) (h : P.refusesRehearsal = false) :
    P.awards = [] := by
  unfold Port.refusesRehearsal at h
  split at h
  · contradiction
  · simpa using h
  · cases h

theorem Port.reservedPlaces_counters (P : Port) (x : CounterPair) :
    ({ P with counters := x } : Port).reservedPlaces = P.reservedPlaces := rfl

theorem Port.committed_mode (P : Port) : P.committed.mode = P.mode := by rw [Port.committed_frame]

theorem Port.reservedPlaces_committed (P : Port) : P.committed.reservedPlaces = P.reservedPlaces :=
  Port.reservedPlaces_congr P.committed_mode (by rw [Port.committed_awards, List.length_map])

theorem State.LogBooks.applyCommit (h : s.LogBooks n) (p : PortNo) : (s.applyCommit p).LogBooks n := by
  by_cases hpending : (s.port p).commitStatus = .pending
  · refine h.of_ports (by rw [State.applyCommit_eq hpending]; exact State.declineRecords_log _ _ _ _) fun q => ?_
    rw [State.port_applyCommit hpending]
    split
    · subst_vars
      exact (Port.reservedPlaces_counters _ _).trans (Port.reservedPlaces_committed _)
    · rfl
  · rw [State.applyCommit_of_not_pending hpending]
    exact h

theorem State.LogBooks.takeForget (h : s.LogBooks 0) : s.takeForget.LogBooks 0 := by
  have hfold : ∀ (ps : List PortNo) {t : State}, t.LogBooks 0 →
      (ps.foldl (fun s p => if (s.port p).mode = .rehearsal then s else s.dropRecords p) t).LogBooks 0 := fun ps => by
    induction ps with
    | nil => exact id
    | cons p ps ih =>
      intro t ht
      refine ih ?_
      dsimp only
      split
      · exact ht
      · rename_i hr
        have hdrop := ht.dropRecords p
        rwa [Port.reservedPlaces_of_other hr] at hdrop
  exact (hfold ascending h).of_same (State.pushSwitch_log _ _) (State.pushSwitch_ports _ _)

theorem State.LogBooks.changeMode (h : s.LogBooks 0) (p : PortNo) (m : Mode)
    (hm : ¬ (m = .rehearsal ∧ (s.port p).refusesRehearsal = true)) : (s.changeMode p m).LogBooks 0 := by
  have hplaces : ∀ q, ((((s.declineQueues p .portOff).closeRun p).port q)).reservedPlaces = (s.port q).reservedPlaces :=
    fun q => by
      rw [State.closeRun, State.port_mapPort, State.port_declineQueues, State.port_declineQueues]
      split
      · subst_vars; rw [if_pos rfl]; rfl
      · rfl
  have hoff : (s.port p).mode ≠ .rehearsal → (((s.declineQueues p .portOff).closeRun p).setMode p .off).LogBooks 0 :=
    fun hr => ((h.declineQueues p .portOff).closeRun p).setMode
      ((hplaces p).trans (Port.reservedPlaces_of_other hr)) (fun h => nomatch h)
  unfold State.changeMode
  split
  · exact h
  · rename_i m' hr hne
    unfold State.leaveRehearsal
    dsimp only
    have hdrop := h.dropRecords p
    rw [Port.reservedPlaces_of_rehearsal hr] at hdrop
    have hlog : s.log.reserved = (s.dropRecords p).log.reserved := by simp
    have hfreed : ((s.dropRecords p).setReserved (s.log.reserved - (s.port p).awards.length)).LogBooks 0 := by
      rw [hlog]
      exact State.LogBooks.setReserved (n := 0) (by rw [Nat.zero_add]; exact hdrop)
    have hport : ((s.dropRecords p).setReserved (s.log.reserved - (s.port p).awards.length)).port p
        = (s.port p).dropped := (s.port_dropRecords p p).trans (if_pos rfl)
    refine State.LogBooks.setMode ?_ ?_ fun _ => ?_
    · rwa [State.dropRecords_log]
    · exact (congrArg Port.reservedPlaces hport).trans (Port.dropped_places _)
    · exact congrArg Port.awards hport
  · rename_i hmode; exact hoff (by rw [hmode]; decide)
  · rename_i hmode; exact hoff (by rw [hmode]; decide)
  · rename_i hr _ _ _
    refine h.setMode (Port.reservedPlaces_of_other hr) fun hrehearsal => ?_
    have hrefuses : (s.port p).refusesRehearsal = false := Bool.eq_false_iff.mpr fun h => hm ⟨hrehearsal, h⟩
    exact Port.awards_of_not_refuses hr hrefuses

end

theorem State.rehearsalAwards_of_no_awards {s : State} (h : ∀ p, (s.port p).awards = []) : s.rehearsalAwards = 0 := by
  refine List.sum_eq_zero fun n hn => ?_
  obtain ⟨P, hP, rfl⟩ := List.mem_map.mp hn
  obtain ⟨i, hi, rfl⟩ := Vector.mem_iff_getElem.mp (Vector.mem_toList_iff.mp hP)
  have hnone : (s.ports[i]).awards = [] := h ⟨i, hi⟩
  show (if _ then (s.ports[i]).awards.length else 0) = 0
  rw [hnone]
  exact ite_self 0

/-- Every change of the bid state keeps the log's books. -/
theorem bidChange_logBooks {c : Instr} {s t : State} (hchange : BidChange c s t) (h : s.LogBooks 0) : t.LogBooks 0 := by
  cases hchange with
  | same hsame => exact h.of_same hsame.log hsame.ports
  | elapse n =>
    refine h.of_ports rfl fun p => ?_
    rw [State.port_elapse]
    exact Port.reservedPlaces_congr rfl (by simp [Port.elapse])
  | counters p f => exact h.mapPort p fun _ => rfl
  | accept b e hoff hcheck =>
    refine State.LogBooks.ladder ?_ _
    refine h.of_ports (by simp [State.acceptBid]) fun q => ?_
    rw [State.port_acceptBid]
    split
    · subst_vars; rfl
    · rfl
  | withdraw p k tag b hfind =>
    refine State.LogBooks.returnRecords (rs := [b]) ?_
    exact h.setPort rfl
  | finish p a moved hmode ha => exact (h.finishRecord ha moved).ladder p
  | testFinish p a moved hmode ha =>
    unfold State.afterTestFinish
    split
    · exact State.rehearsalOpportunities_keeps (I := fun t => t.LogBooks 0) (fun _ p h => h.ladder p)
        (h.finishRecord ha moved)
    · exact (h.finishRecord ha moved).ladder p
  | lapse p a ha => exact h.lapseRecord ha
  | gradeUp p g hc hg =>
    have hup : ((s.mapPort p (fun P => { P with grade := g })).mapPort p
        (fun P => { P.recomputeShares g with holdDownTimer := none, stranded := false })).LogBooks 0 := by
      refine State.LogBooks.mapPort ?_ p fun _ => rfl
      exact h.mapPort p fun _ => rfl
    unfold State.gradeUp
    dsimp only
    split
    · exact hup.ladder p
    · exact hup
  | gradeStay p hc hbefore => exact h.mapPort p fun _ => rfl
  | gradeFall p hc hbefore =>
    unfold State.gradeFall
    dsimp only
    split
    · refine State.LogBooks.strand ?_ p
      exact h.mapPort p fun _ => rfl
    · refine State.LogBooks.mapPort ?_ p fun _ => rfl
      exact h.mapPort p fun _ => rfl
  | strand p htimer =>
    refine State.LogBooks.strand ?_ p
    exact h.mapPort p fun _ => rfl
  | forget => exact h.takeForget
  | accrual p hc =>
    refine State.LogBooks.ladder ?_ p
    exact (h.applyCommit p).mapPort p fun _ => rfl
  | closeRun p => exact h.closeRun p
  | settings p pb b x hc hw =>
    unfold State.storeSettings
    dsimp only
    split
    · refine State.LogBooks.ladder ?_ p
      exact h.mapPort p fun _ => rfl
    · exact h.mapPort p fun _ => rfl
  | mode p pb mb m hc hm =>
    unfold State.acceptMode
    dsimp only
    refine State.LogBooks.afterFreeing ?_ _
    split
    · exact (h.changeMode p m hm).ladder p
    · exact h.changeMode p m hm
  | flush p => exact h.declineQueues p .flushed
  | source e eb b x hc hx hlimit => exact h.of_same rfl rfl
  | stage p k x hfree hx hlock => exact h.mapPort p fun _ => rfl
  | commit m hok =>
    refine h.of_ports (by rw [State.acceptCommit_eq]) fun p => ?_
    rw [State.port_acceptCommit]
    rfl
  | abort p =>
    refine h.of_ports ?_ fun q => ?_
    · unfold State.abortPort; split <;> rfl
    · rw [State.port_abortPort]
      split
      · rename_i hq; obtain ⟨rfl, -⟩ := hq; rfl
      · rfl
  | lock p k pb cb hc hfree hvalid hprot => exact h.mapPort p fun _ => rfl
  | marks l u hlt hle => exact h.of_same (by simp) (by simp)
  | readLog =>
    refine State.LogBooks.afterFreeing ?_ _
    obtain ⟨hfits, hreserved⟩ := h
    refine ⟨?_, hreserved⟩
    have hlength : (s.log.entries.drop 16).length ≤ s.log.entries.length := by rw [List.length_drop]; exact Nat.sub_le _ _
    exact (Nat.add_le_add_right hlength _).trans hfits
  | warm =>
    refine State.LogBooks.afterFreeing ⟨Nat.zero_le _, ?_⟩ _
    rw [State.rehearsalAwards_of_no_awards fun p => by rw [State.port_warmValues]; rfl]
    rfl

/-- Settles O15: the books with no place in hand are the law, and every change of the bid state keeps them. -/
theorem rehearsalLogHasItsPlaces : Obligations.RehearsalLogHasItsPlaces :=
  keptByStep_of_bidChange
    (fun _ s t hchange h => t.logBooks_zero.mp (bidChange_logBooks hchange (s.logBooks_zero.mpr h)))
    fun q => ⟨Nat.zero_le _, (State.rehearsalAwards_of_no_awards fun p => by rw [State.port_reset]; rfl).symm⟩

end Sys2Proof.Machine
end

section
/-! PROOFS. No eligible bid waits (O12): a selection opportunity ends with nothing eligible, and whatever could make a bid
eligible gives its port an opportunity (R63, R64, R70). -/

namespace Sys2Proof.Machine

/-! ## Eligible rows -/

/-- Whether the port may award, given whether the log is full (R62). -/
def Port.mayAwardIf (P : Port) (full : Bool) : Bool :=
  (P.mode == .live || P.mode == .rehearsal) && P.grade != .down && decide (P.awards.length < P.settings.window)
    && !(P.mode == .rehearsal && full)

theorem State.mayAward_eq (s : State) (p : PortNo) : s.mayAward p = (s.port p).mayAwardIf s.log.full := rfl

/-- The port has no open run, and no row meets the condition of a scan. -/
def Port.Quiet (P : Port) : Prop := P.run = none ∧ ∀ l k c, (P.row c).meets l k = false

theorem mem_scanOrder (p c : ClassNo) : c ∈ scanOrder p := by
  refine List.mem_map.mpr ⟨c - (p + 1), mem_ascending _, ?_⟩
  exact add_sub_cancel (p + 1) c

theorem Port.scanStep_eq_none {P : Port} {l : Lane} {k : Charge} :
    P.scanStep l k = none ↔ ∀ c, (P.row c).meets l k = false := by
  rw [Port.scanStep, Option.map_eq_none_iff, Port.scan, List.find?_eq_none]
  exact ⟨fun h c => Bool.eq_false_iff.mpr (h c (mem_scanOrder _ c)), fun h c _ => Bool.eq_false_iff.mp (h c)⟩

theorem Port.pass_of_no_run {P : Port} (h : P.run = none) :
    P.pass.2 = (P.scanStep .prime .floor).or P.laneSteps := by
  have hstep : P.runStep = none := by rw [Port.runStep, h]
  unfold Port.pass
  rw [hstep]
  cases P.scanStep .prime .floor <;> rfl

/-- With no run open a pass yields nothing exactly when no row is eligible (R66 to R70). -/
theorem Port.quiet_iff (P : Port) : P.Quiet ↔ P.pass.2 = none ∧ P.run = none := by
  have hall : P.run = none → (P.pass.2 = none ↔ ∀ l k c, (P.row c).meets l k = false) := fun hrun => by
    rw [Port.pass_of_no_run hrun]
    simp only [Port.laneSteps, Option.or_eq_none_iff, Port.scanStep_eq_none]
    constructor
    · rintro ⟨hpf, hmf, hbf, hpc, hmc, hbc⟩ l k
      cases l <;> cases k <;> assumption
    · exact fun h => ⟨h _ _, h _ _, h _ _, h _ _, h _ _, h _ _⟩
  exact ⟨fun ⟨hrun, hmeets⟩ => ⟨(hall hrun).mpr hmeets, hrun⟩, fun ⟨hpass, hrun⟩ => ⟨hrun, (hall hrun).mp hpass⟩⟩

theorem Row.meets_of_empty {r : Row} (h : r.queue = []) (l : Lane) (k : Charge) : r.meets l k = false := by
  simp [Row.meets, h]

/-! ## The law at a port -/

/-- An OFF port has no queued record and no open run (R101, R106). -/
def Port.OffHolds (P : Port) : Prop := P.mode = .off → (∀ c, (P.row c).queue = []) ∧ P.run = none

/-- The law at a port, given whether the log is full (R64, R70). -/
structure Port.LadderHolds (P : Port) (full : Bool) : Prop where
  quiet : P.mayAwardIf full = true → P.Quiet
  off : P.OffHolds

theorem Port.queued_eq_nil (P : Port) : P.queued = [] ↔ ∀ c, (P.row c).queue = [] := by
  rw [Port.queued, List.flatMap_eq_nil_iff]
  exact ⟨fun h c => h c (mem_ascending c), fun h c _ => h c⟩

theorem State.ladderLaw_iff (s : State) : s.LadderLaw ↔ ∀ p, (s.port p).LadderHolds s.log.full := by
  refine forall_congr' fun p => ⟨fun ⟨hquiet, hoff⟩ => ⟨fun hmay => (Port.quiet_iff _).mpr (hquiet hmay), fun hmode => ?_⟩,
    fun h => ⟨fun hmay => (Port.quiet_iff _).mp (h.quiet hmay), fun hmode => ?_⟩⟩
  · exact ⟨(Port.queued_eq_nil _).mp (hoff hmode).1, (hoff hmode).2⟩
  · exact ⟨(Port.queued_eq_nil _).mpr (h.off hmode).1, (h.off hmode).2⟩

section
variable {P Q : Port} {full full' : Bool}

/-- A port that can award no more, that is OFF only if it was, and whose rows and run offer no more. -/
theorem Port.LadderHolds.mono (h : P.LadderHolds full) (hmay : Q.mayAwardIf full' = true → P.mayAwardIf full = true)
    (hmode : Q.mode = .off → P.mode = .off) (hrun : P.run = none → Q.run = none)
    (hmeets : ∀ l k c, (Q.row c).meets l k = true → (P.row c).meets l k = true)
    (hqueue : ∀ c, (P.row c).queue = [] → (Q.row c).queue = []) : Q.LadderHolds full' where
  quiet hq := by
    obtain ⟨hnone, hrows⟩ := h.quiet (hmay hq)
    exact ⟨hrun hnone, fun l k c => Bool.eq_false_iff.mpr fun hm => Bool.eq_false_iff.mp (hrows l k c) (hmeets l k c hm)⟩
  off hq := by
    obtain ⟨hempty, hnone⟩ := h.off (hmode hq)
    exact ⟨fun c => hqueue c (hempty c), hrun hnone⟩

/-- A change that reaches neither rows nor run. -/
theorem Port.LadderHolds.of_rows (h : P.LadderHolds full) (hmay : Q.mayAwardIf full' = true → P.mayAwardIf full = true)
    (hmode : Q.mode = .off → P.mode = .off) (hrun : P.run = none → Q.run = none) (hrow : ∀ c, Q.row c = P.row c) :
    Q.LadderHolds full' :=
  h.mono hmay hmode hrun (fun _ _ c hm => hrow c ▸ hm) fun c hc => (hrow c).symm ▸ hc

theorem Port.LadderHolds.of_empty (hqueue : ∀ c, (Q.row c).queue = []) (hrun : Q.run = none) : Q.LadderHolds full where
  quiet _ := ⟨hrun, fun _ _ c => Row.meets_of_empty (hqueue c) _ _⟩
  off _ := ⟨hqueue, hrun⟩

theorem Port.mayAwardIf_full (h : full = true → full' = true) (hmay : P.mayAwardIf full' = true) :
    P.mayAwardIf full = true := by
  cases full
  · simp only [Port.mayAwardIf, Bool.and_false, Bool.not_false, Bool.and_true] at hmay ⊢
    exact (Bool.and_eq_true_iff.mp hmay).1
  · rw [h rfl] at hmay; exact hmay

/-- The law at a port stays while the log is as full as it was. -/
theorem Port.LadderHolds.of_full (h : P.LadderHolds full) (hfull : full = true → full' = true) : P.LadderHolds full' :=
  h.of_rows (Port.mayAwardIf_full hfull) id id fun _ => rfl

/-- The log has no part in the law of a port that is not in REHEARSAL. -/
theorem Port.LadderHolds.of_mode (h : P.LadderHolds full) (hmode : P.mode ≠ .rehearsal) : P.LadderHolds full' := by
  refine h.of_rows (fun hmay => ?_) id id fun _ => rfl
  simpa [Port.mayAwardIf, hmode] using hmay

/-- A port in REHEARSAL may not award while the log is full (R62). -/
theorem Port.ladderHolds_of_full (hmode : P.mode = .rehearsal) : P.LadderHolds true where
  quiet hmay := by simp [Port.mayAwardIf, hmode] at hmay
  off hoff := by rw [hmode] at hoff; cases hoff

end

/-! ## A selection opportunity -/

theorem RehearsalLog.full_mono {l m : RehearsalLog}
    (h : l.entries.length + l.reserved ≤ m.entries.length + m.reserved) (hfull : l.full = true) : m.full = true := by
  have hfree : 64 - l.entries.length - l.reserved < 2 := of_decide_eq_true hfull
  have : 64 - m.entries.length - m.reserved < 2 := by omega
  exact decide_eq_true this

/-- An award writes to the log or leaves it: it does not free a place (R162). -/
theorem State.tellAward_log_le (s : State) (p : PortNo) (x : Selection) (b : BidRecord) :
    s.log.entries.length + s.log.reserved
      ≤ (s.tellAward p x b).log.entries.length + (s.tellAward p x b).log.reserved := by
  by_cases h : (s.port p).mode = .rehearsal
  · rw [State.tellAward_of_rehearsal h, State.setReserved, State.writeLog_log]
    simp only [List.length_append, List.length_singleton]
    omega
  · rw [State.tellAward_of_other h]
    exact Nat.le_refl _

theorem State.ladder_log_le (s : State) (p : PortNo) :
    s.log.entries.length + s.log.reserved ≤ (s.ladder p).log.entries.length + (s.ladder p).log.reserved := by
  refine State.ladder_keeps (p := p)
    (I := fun t => s.log.entries.length + s.log.reserved ≤ t.log.entries.length + t.log.reserved)
    (fun t h => h) (fun t x b rest h haward => ?_) (Nat.le_refl _)
  rw [State.award_eq haward.queue]
  exact h.trans (State.tellAward_log_le (t.setPort p _) p x b)

theorem State.ladder_full (s : State) (p : PortNo) (h : s.log.full = true) : (s.ladder p).log.full = true :=
  RehearsalLog.full_mono (s.ladder_log_le p) h

theorem Port.mayAwardIf_of_window {P : Port} {full : Bool} (h : P.settings.window ≤ P.awards.length) :
    P.mayAwardIf full = false := by
  simp [Port.mayAwardIf, Nat.not_lt.mpr h]

/-- The ladder has passes enough: each award fills a place of the window, and a pass that yields nothing is the last
(R64). -/
theorem ladderPasses_ends (n : Nat) (p : PortNo) (s : State)
    (hn : (s.port p).settings.window ≤ (s.port p).awards.length + n) :
    (ladderPasses n p s).mayAward p = true → ((ladderPasses n p s).port p).Quiet := by
  induction n generalizing s with
  | zero =>
    intro hmay
    have hwindow : s.mayAward p = false := Port.mayAwardIf_of_window hn
    exact absurd hmay (by rw [ladderPasses, hwindow]; decide)
  | succ n ih =>
    unfold ladderPasses
    split
    · split
      · rename_i P x hx
        have hsel : (((s.setPort p P).port p).row x.cls).queue ≠ [] := by
          rw [State.port_setPort_same]; exact (Port.pass_queue hx).1
        obtain ⟨hlength, hsettings⟩ := State.award_length _ p x hsel
        refine ih _ ?_
        obtain ⟨-, hawards, hsame⟩ := Port.pass_queue hx
        rw [hlength, hsettings, State.port_setPort_same, hawards, hsame]
        omega
      · rename_i P hx
        have hP := Port.pass_none hx
        intro _
        rw [State.port_setPort_same, hP]
        refine ⟨rfl, fun l k c => ?_⟩
        have hsteps : P.scanStep .prime .floor = none ∧ P.laneSteps = none := by
          unfold Port.pass at hx
          split at hx
          · cases hx
          · rename_i hprime
            split at hx
            · cases hx
            · obtain ⟨rfl, hlanes⟩ := Prod.mk.injEq .. ▸ hx
              exact ⟨hprime, hlanes⟩
        have hquiet : P.Quiet := (Port.quiet_iff P).mpr
          ⟨by rw [Port.pass_of_no_run (by rw [hP]), hsteps.1, hsteps.2]; rfl, by rw [hP]⟩
        rw [hP] at hquiet
        exact hquiet.2 l k c
    · rename_i hmay
      exact fun h => absurd h hmay

theorem State.ladder_of_not_mayAward {s : State} {p : PortNo} (h : s.mayAward p = false) : s.ladder p = s := by
  rw [State.ladder, ladderPasses, h]; rfl

section
variable {s t : State} {p q : PortNo}

/-- After its selection opportunity the law holds at the port (R64). -/
theorem State.ladderHolds_ladder (h : (s.port p).OffHolds) : ((s.ladder p).port p).LadderHolds (s.ladder p).log.full where
  quiet := ladderPasses_ends _ p s (by omega)
  off hoff := by
    have hmode : (s.port p).mode = .off := by
      have hsame := s.ladder_port_same p
      unfold Port.sameOutsideAwards at hsame
      rw [hsame] at hoff
      exact hoff
    have hnot : s.mayAward p = false := by simp [State.mayAward, hmode]
    rw [State.ladder_of_not_mayAward hnot]
    exact h hmode

/-- The opportunity of a port leaves the law at the others. -/
theorem State.ladderHolds_ladder_ne (hne : q ≠ p) (h : (s.port q).LadderHolds s.log.full) :
    ((s.ladder p).port q).LadderHolds (s.ladder p).log.full := by
  rw [State.ladder_port_ne s hne]
  exact h.of_full (s.ladder_full p)

theorem State.ladder_mode (s : State) (p q : PortNo) : ((s.ladder p).port q).mode = (s.port q).mode := by
  by_cases h : q = p
  · subst h
    have hsame := s.ladder_port_same q
    unfold Port.sameOutsideAwards at hsame
    rw [hsame]
  · rw [State.ladder_port_ne s h]

/-- An event that gives its port an opportunity restores the law (R63). -/
theorem State.ladderLaw_ladder (hother : ∀ q, q ≠ p → (s.port q).LadderHolds s.log.full) (hown : (s.port p).OffHolds) :
    (s.ladder p).LadderLaw := (State.ladderLaw_iff _).mpr fun q => by
  by_cases h : q = p
  · subst h; exact State.ladderHolds_ladder hown
  · exact State.ladderHolds_ladder_ne h (hother q h)

/-- The opportunities of R163 restore the law at the ports in REHEARSAL. -/
theorem State.ladderLaw_rehearsalOpportunities (h : ∀ q, (s.port q).mode ≠ .rehearsal → (s.port q).LadderHolds s.log.full) :
    s.rehearsalOpportunities.LadderLaw := by
  have hfold : ∀ (ps : List PortNo) (t : State),
      (∀ q, q ∉ ps ∨ (t.port q).mode ≠ .rehearsal → (t.port q).LadderHolds t.log.full) →
      (ps.foldl (fun s p => if (s.port p).mode = .rehearsal then s.ladder p else s) t).LadderLaw := fun ps => by
    induction ps with
    | nil => exact fun t ht => (State.ladderLaw_iff t).mpr fun q => ht q (.inl List.not_mem_nil)
    | cons p ps ih =>
      intro t ht
      refine ih _ fun q hq => ?_
      dsimp only at hq ⊢
      by_cases hmode : (t.port p).mode = .rehearsal
      · rw [if_pos hmode] at hq ⊢
        rw [State.ladder_mode] at hq
        by_cases hqp : q = p
        · subst hqp
          exact State.ladderHolds_ladder fun hoff => by rw [hmode] at hoff; cases hoff
        · exact State.ladderHolds_ladder_ne hqp (ht q (hq.imp_left fun h => by simp [hqp, h]))
      · rw [if_neg hmode] at hq ⊢
        by_cases hqp : q = p
        · subst hqp; exact ht q (.inr hmode)
        · exact ht q (hq.imp_left fun h => by simp [hqp, h])
  exact hfold ascending s fun q hq => h q (hq.resolve_left fun hnot => hnot (mem_ascending q))

/-- The law after an event that may have freed places of the log, which was full or not before it (R163). -/
theorem State.ladderLaw_afterFreeing {full : Bool}
    (h : ∀ q, (s.port q).LadderHolds full ∨ (s.port q).LadderHolds s.log.full) : (s.afterFreeing full).LadderLaw := by
  have hother : ∀ q, (s.port q).mode ≠ .rehearsal → (s.port q).LadderHolds s.log.full := fun q hmode =>
    (h q).elim (fun hq => hq.of_mode hmode) id
  unfold State.afterFreeing
  split
  · exact State.ladderLaw_rehearsalOpportunities hother
  · rename_i hnot
    refine (State.ladderLaw_iff s).mpr fun q => ?_
    cases full
    · exact (h q).elim (fun hq => hq.of_full fun hfalse => nomatch hfalse) id
    · have hfull : s.log.full = true := by simpa using hnot
      by_cases hmode : (s.port q).mode = .rehearsal
      · rw [hfull]; exact Port.ladderHolds_of_full hmode
      · exact hother q hmode

/-! ## The changes of the bid state -/

/-- The law over states, by ports. -/
def State.LaddersHold (s : State) : Prop := ∀ p, (s.port p).LadderHolds s.log.full

theorem State.LaddersHold.of_ports (h : s.LaddersHold) (hlog : t.log = s.log)
    (hports : ∀ q, (t.port q) = s.port q ∨ (t.port q).LadderHolds s.log.full) : t.LaddersHold := fun q => by
  rw [hlog]
  exact (hports q).elim (fun hq => hq ▸ h q) id

theorem State.LaddersHold.mapPort (h : s.LaddersHold) {f : Port → Port}
    (hf : (s.port p).LadderHolds s.log.full → (f (s.port p)).LadderHolds s.log.full) : (s.mapPort p f).LaddersHold :=
  h.of_ports rfl fun q => by
    rw [State.port_mapPort]
    split
    · exact .inr (hf (h p))
    · exact .inl rfl

/-- A change of one port and its opportunity, where the log is as full as it was. -/
theorem State.LaddersHold.ladder (h : s.LaddersHold) (hfull : s.log.full = true → t.log.full = true)
    (hother : ∀ q, q ≠ p → t.port q = s.port q) (hown : (t.port p).OffHolds) : (t.ladder p).LaddersHold :=
  (State.ladderLaw_iff _).mp (State.ladderLaw_ladder (fun q hq => hother q hq ▸ (h q).of_full hfull) hown)

theorem Port.offHolds_of_frame {P Q : Port} (h : P.OffHolds) (hmode : Q.mode = P.mode)
    (hqueue : ∀ c, (P.row c).queue = [] → (Q.row c).queue = []) (hrun : P.run = none → Q.run = none) : Q.OffHolds :=
  fun hoff => ⟨fun c => hqueue c ((h (hmode ▸ hoff)).1 c), hrun (h (hmode ▸ hoff)).2⟩

theorem State.log_finishRecord (s : State) (p : PortNo) (a : AwardRecord) (moved : Nat) :
    (s.finishRecord p a moved).log
      = if (s.port p).mode = .rehearsal then { s.log with reserved := s.log.reserved - 1 } else s.log := by
  have key : ∀ t : State, t.ports = s.ports → t.log = s.log →
      (((t.mapPort p (fun P => P.finished a moved)).freeReserved p).returnRecord a.bid).log
        = if (s.port p).mode = .rehearsal then { s.log with reserved := s.log.reserved - 1 } else s.log :=
    fun t hports hlog => by
      rw [State.returnRecord_log, State.freeReserved, State.port_mapPort_same, Port.finished_mode,
        State.port_congr hports]
      split
      · show ({ (t.mapPort p _).log with reserved := (t.mapPort p _).log.reserved - 1 } : RehearsalLog) = _
        rw [State.mapPort_log, hlog]
      · rw [State.mapPort_log, hlog]
  unfold State.finishRecord
  dsimp only
  split
  · exact key _ (by simp) (by simp)
  · exact key s rfl rfl

theorem Port.finished_queue (P : Port) (a : AwardRecord) (moved : Nat) (c : ClassNo) :
    ((P.finished a moved).row c).queue = (P.row c).queue := by
  unfold Port.finished
  dsimp only
  split
  · rw [Port.row_mapRow]
    split
    · subst_vars; rw [Row.refund_queue]; rfl
    · rfl
  · rfl

theorem Port.finished_run (P : Port) (a : AwardRecord) (moved : Nat) : (P.finished a moved).run = P.run := by
  unfold Port.finished
  dsimp only
  split <;> rfl

theorem Port.offHolds_finished {P : Port} (h : P.OffHolds) (a : AwardRecord) (moved : Nat) :
    (P.finished a moved).OffHolds :=
  Port.offHolds_of_frame h (P.finished_mode a moved) (fun c hc => (P.finished_queue a moved c).trans hc)
    fun hrun => (P.finished_run a moved).trans hrun

theorem State.LaddersHold.finish (h : s.LaddersHold) {a : AwardRecord} {moved : Nat}
    (hmode : (s.port p).mode ≠ .rehearsal) : ((s.finishRecord p a moved).ladder p).LaddersHold := by
  refine h.ladder (fun hfull => ?_) (fun q hq => ?_) ?_
  · rw [State.log_finishRecord, if_neg hmode]; exact hfull
  · rw [State.port_finishRecord, if_neg hq]
  · rw [State.port_finishRecord, if_pos rfl]
    exact Port.offHolds_finished (h p).off a moved

theorem State.LaddersHold.testFinish (h : s.LaddersHold) {a : AwardRecord} {moved : Nat}
    (hmode : (s.port p).mode = .rehearsal) :
    ((s.finishRecord p a moved).afterTestFinish p s.log.full).LaddersHold := by
  have hother : ∀ q, q ≠ p → (s.finishRecord p a moved).port q = s.port q := fun q hq => by
    rw [State.port_finishRecord, if_neg hq]
  have hown : (s.finishRecord p a moved).port p = (s.port p).finished a moved := by
    rw [State.port_finishRecord, if_pos rfl]
  unfold State.afterTestFinish
  split
  · refine (State.ladderLaw_iff _).mp (State.ladderLaw_rehearsalOpportunities fun q hq => ?_)
    by_cases hqp : q = p
    · subst hqp
      rw [hown, Port.finished_mode] at hq
      exact absurd hmode hq
    · rw [hother q hqp] at hq ⊢
      exact (h q).of_mode hq
  · rename_i hnot
    refine h.ladder (fun hfull => ?_) hother ?_
    · simpa [hfull] using hnot
    · rw [hown]; exact Port.offHolds_finished (h p).off a moved

theorem State.tellLapse_log_le (s : State) (p : PortNo) (a : AwardRecord) :
    s.log.entries.length + s.log.reserved
      ≤ (s.tellLapse p a).log.entries.length + (s.tellLapse p a).log.reserved := by
  unfold State.tellLapse
  split
  · rw [State.setReserved, State.writeLog_log]
    simp only [List.length_append, List.length_singleton]
    omega
  · exact Nat.le_refl _

/-- The port of a lapse, up to its opportunity, is without the record and has counted the event (R90). -/
theorem State.lapseRecord_eq (s : State) (p : PortNo) (a : AwardRecord) :
    ∃ t : State, s.lapseRecord p a = t.ladder p ∧ (s.log.full = true → t.log.full = true)
      ∧ ∀ q, t.port q = if q = p then ((s.port p).removeAward a.bid.tag).count .lapses (some a.bid.cls) 1
          else s.port q := by
  refine ⟨_, rfl, fun hfull => ?_, fun q => ?_⟩
  · rw [State.count_log, State.reportFault_log]
    refine RehearsalLog.full_mono (State.tellLapse_log_le _ p a) ?_
    rw [State.returnRecord_log]
    exact hfull
  · have hports : ∀ r, (((((s.mapPort p (fun P => P.removeAward a.bid.tag)).returnRecord a.bid).tellLapse p a).reportFault
        ((((s.mapPort p (fun P => P.removeAward a.bid.tag)).returnRecord a.bid).tellLapse p a).recordFault .finishLapse
          p a.bid)).port r) = if r = p then (s.port p).removeAward a.bid.tag else s.port r := fun r => by
      rw [State.port_congr (State.reportFault_ports _ _), State.port_congr (State.tellLapse_same _ p a).1,
        State.port_congr (State.returnRecord_ports _ _), State.port_mapPort]
    rw [State.count, State.port_mapPort, hports, hports]
    split
    · rw [if_pos rfl]
    · rfl

theorem State.LaddersHold.lapse (h : s.LaddersHold) (a : AwardRecord) : (s.lapseRecord p a).LaddersHold := by
  obtain ⟨t, ht, hfull, hport⟩ := s.lapseRecord_eq p a
  rw [ht]
  refine h.ladder hfull (fun q hq => (hport q).trans (if_neg hq)) ?_
  rw [hport, if_pos rfl]
  exact Port.offHolds_of_frame (h p).off rfl (fun _ hc => hc) id

/-- A port whose queues have been declined, its run closed or closed already (R60). -/
theorem State.LaddersHold.declineQueues (h : s.LaddersHold) (cause : Cause) : (s.declineQueues p cause).LaddersHold :=
  h.of_ports (by simp) fun q => by
    rw [State.port_declineQueues]
    split
    · refine .inr ((h p).mono id id id (fun l k c hm => ?_) fun c _ => Port.row_clearQueues _ c ▸ rfl)
      have hempty : ((s.port p).declined.row c).queue = [] := Port.row_clearQueues (s.port p) c ▸ rfl
      rw [Row.meets_of_empty hempty] at hm
      cases hm
    · exact .inl rfl

theorem State.LaddersHold.closeRun (h : s.LaddersHold) : (s.closeRun p).LaddersHold :=
  h.mapPort fun hp => hp.of_rows id id (fun _ => rfl) fun _ => rfl

theorem State.LaddersHold.of_same (h : s.LaddersHold) (hports : t.ports = s.ports) (hlog : t.log = s.log) :
    t.LaddersHold := h.of_ports hlog fun q => .inl (State.port_congr hports q)

theorem State.LaddersHold.strand (h : s.LaddersHold) : (s.strand p).LaddersHold := by
  unfold State.strand
  have hflag : (s.mapPort p (fun P => { P with stranded := true })).LaddersHold :=
    h.mapPort fun hp => hp.of_rows id id id fun _ => rfl
  exact State.LaddersHold.of_same ((hflag.declineQueues (p := p) .portDown).closeRun (p := p)) (by simp) (by simp)

theorem State.LaddersHold.dropRecords (h : s.LaddersHold) : (s.dropRecords p).LaddersHold :=
  h.of_ports (by simp) fun q => by
    rw [State.port_dropRecords]
    split
    · exact .inr (.of_empty (fun c => (Port.row_dropped _ c) ▸ rfl) rfl)
    · exact .inl rfl

theorem State.LaddersHold.takeForget (h : s.LaddersHold) : s.takeForget.LaddersHold := by
  have hfold : ∀ (ps : List PortNo) {t : State}, t.LaddersHold →
      (ps.foldl (fun s p => if (s.port p).mode = .rehearsal then s else s.dropRecords p) t).LaddersHold := fun ps => by
    induction ps with
    | nil => exact id
    | cons p ps ih =>
      intro t ht
      refine ih ?_
      dsimp only
      split
      · exact ht
      · exact ht.dropRecords
  exact (hfold ascending h).of_same (State.pushSwitch_ports _ _) (State.pushSwitch_log _ _)

theorem Port.completed_run (Q : Port) : Q.completed.run = Q.run := rfl

theorem Port.committed_run (P : Port) : P.committed.run = runKeptBy P.withdraws P.run := by
  rw [← Port.withdrawsAmong_ascending, Port.committed, Port.completed_run, Port.appliedTo_run P ascending_nodup]

theorem Port.offHolds_committed {P : Port} (h : P.OffHolds) : P.committed.OffHolds := by
  refine Port.offHolds_of_frame h P.committed_mode (fun c hc => ?_) fun hrun => ?_
  · rw [Port.queue_committed, hc, ite_self]
  · rw [Port.committed_run, hrun]; rfl

theorem Port.offHolds_counters {P : Port} (h : P.OffHolds) (x : CounterPair) : ({ P with counters := x } : Port).OffHolds :=
  Port.offHolds_of_frame h rfl (fun _ hc => hc) id

theorem Port.offHolds_accrue_reload {P : Port} (h : P.OffHolds) : P.accrue.reload.OffHolds := by
  refine Port.offHolds_of_frame h rfl (fun c hc => ?_) id
  have hrow : P.accrue.reload.row c = P.accrue.row c := rfl
  rw [hrow, Port.row_accrue]
  unfold Row.accrue
  dsimp only
  split <;> exact hc

theorem State.LaddersHold.accrual (h : s.LaddersHold) : (s.accrualExpiry p).LaddersHold := by
  have hlog : (s.applyCommit p).log = s.log := by
    by_cases hpending : (s.port p).commitStatus = .pending
    · rw [State.applyCommit_eq hpending]; exact State.declineRecords_log _ _ _ _
    · rw [State.applyCommit_of_not_pending hpending]
  have hport : (∀ q, q ≠ p → (s.applyCommit p).port q = s.port q) ∧ ((s.applyCommit p).port p).OffHolds := by
    by_cases hpending : (s.port p).commitStatus = .pending
    · refine ⟨fun q hq => by rw [State.port_applyCommit hpending, if_neg hq], ?_⟩
      rw [State.port_applyCommit hpending, if_pos rfl]
      exact Port.offHolds_counters (Port.offHolds_committed (h p).off) _
    · rw [State.applyCommit_of_not_pending hpending]
      exact ⟨fun _ _ => rfl, (h p).off⟩
  refine h.ladder (fun hfull => ?_) (fun q hq => ?_) ?_
  · rw [State.mapPort_log, hlog]; exact hfull
  · rw [State.port_mapPort_ne _ _ hq]; exact hport.1 q hq
  · rw [State.port_mapPort_same]; exact Port.offHolds_accrue_reload hport.2

/-! ## Mode changes -/

/-- The port after an accepted mode change, up to the opportunities that follow it (R103 to R106). -/
def Port.modeChanged (P : Port) (m : Mode) : Port :=
  if P.mode = .rehearsal then if m = .rehearsal then P else { P.dropped with mode := m }
  else if m = .off ∧ P.mode ≠ .off then { P.declined with run := none, mode := .off }
  else { P with mode := m }

theorem State.changeMode_stay (h : (s.port p).mode = .rehearsal) : s.changeMode p .rehearsal = s := by
  simp only [State.changeMode, h]

theorem State.changeMode_leave {m : Mode} (h : (s.port p).mode = .rehearsal) (hm : m ≠ .rehearsal) :
    s.changeMode p m = s.leaveRehearsal p m := by
  cases m
  case rehearsal => exact absurd rfl hm
  all_goals simp only [State.changeMode, h]

theorem State.changeMode_close (hr : (s.port p).mode ≠ .rehearsal) (hoff : (s.port p).mode ≠ .off) :
    s.changeMode p .off = ((s.declineQueues p .portOff).closeRun p).setMode p .off := by
  cases h : (s.port p).mode
  case rehearsal => exact absurd h hr
  case off => exact absurd h hoff
  all_goals simp only [State.changeMode, h]

theorem State.changeMode_store {m : Mode} (hr : (s.port p).mode ≠ .rehearsal)
    (hoff : ¬ (m = .off ∧ (s.port p).mode ≠ .off)) : s.changeMode p m = s.setMode p m := by
  unfold State.changeMode
  split
  · exact absurd (by assumption) hr
  · exact absurd (by assumption) hr
  · rename_i h; exact absurd ⟨rfl, by rw [h]; decide⟩ hoff
  · rename_i h; exact absurd ⟨rfl, by rw [h]; decide⟩ hoff
  · rfl

theorem State.port_setMode (s : State) (p q : PortNo) (m : Mode) :
    (s.setMode p m).port q = if q = p then { s.port p with mode := m } else s.port q := s.port_mapPort p q _

theorem State.port_leaveOpen (s : State) (p q : PortNo) :
    (((s.declineQueues p .portOff).closeRun p).setMode p .off).port q
      = if q = p then { (s.port p).declined with run := none, mode := .off } else s.port q := by
  rw [State.port_setMode, State.closeRun, State.port_mapPort, State.port_mapPort, State.port_declineQueues,
    State.port_declineQueues]
  split <;> simp

theorem State.port_changeMode (s : State) (p : PortNo) (m : Mode) (q : PortNo) :
    (s.changeMode p m).port q = if q = p then (s.port p).modeChanged m else s.port q := by
  by_cases hr : (s.port p).mode = .rehearsal
  · by_cases hm : m = .rehearsal
    · rw [hm, State.changeMode_stay hr, Port.modeChanged, if_pos hr, if_pos rfl]
      split
      · subst_vars; rfl
      · rfl
    · have hdropped : ∀ n r, ((s.dropRecords p).setReserved n).port r = if r = p then (s.port p).dropped else s.port r :=
        fun _ r => s.port_dropRecords p r
      rw [State.changeMode_leave hr hm, State.leaveRehearsal, State.port_setMode, hdropped, hdropped, if_pos rfl,
        Port.modeChanged, if_pos hr, if_neg hm]
      split
      · rfl
      · rfl
  · by_cases hm : m = .off ∧ (s.port p).mode ≠ .off
    · rw [Port.modeChanged, if_neg hr, if_pos hm, hm.1, State.changeMode_close hr hm.2, State.port_leaveOpen]
    · rw [State.changeMode_store hr hm, State.port_setMode, Port.modeChanged, if_neg hr, if_neg hm]

theorem Port.modeChanged_mode (P : Port) (m : Mode) : (P.modeChanged m).mode = m := by
  unfold Port.modeChanged
  split
  · split
    · rename_i hr hm; rw [hr, hm]
    · rfl
  · split
    · rename_i hm; exact hm.1.symm
    · rfl

/-- What an accepted change to another mode than LIVE leaves: emptied queues, a FROZEN port, or the port as it was. -/
theorem Port.ladderHolds_modeChanged {P : Port} {m : Mode} {full : Bool} (h : P.LadderHolds full) (hlive : m ≠ .live)
    (hm : ¬ (m = .rehearsal ∧ P.refusesRehearsal = true)) : (P.modeChanged m).LadderHolds full := by
  unfold Port.modeChanged
  split
  · split
    · exact h
    · exact .of_empty (fun c => Port.row_dropped P c ▸ rfl) rfl
  · rename_i hr
    split
    · exact .of_empty (fun c => Port.row_clearQueues P c ▸ rfl) rfl
    · rename_i hnot
      have hempty : P.mode = .off → ({ P with mode := m } : Port).LadderHolds full := fun hoff =>
        .of_empty (h.off hoff).1 (h.off hoff).2
      cases m with
      | live => exact absurd rfl hlive
      | frozen => exact ⟨fun hmay => by simp [Port.mayAwardIf] at hmay, fun hoff => nomatch hoff⟩
      | off => exact hempty (by_contra fun hoff => hnot ⟨rfl, hoff⟩)
      | rehearsal =>
        have hrefuses : P.refusesRehearsal = false := Bool.eq_false_iff.mpr fun h => hm ⟨rfl, h⟩
        refine hempty (by_contra fun hoff => ?_)
        cases hmode : P.mode <;> simp_all [Port.refusesRehearsal]

theorem State.LaddersHold.acceptMode (h : s.LaddersHold) {m : Mode}
    (hm : ¬ (m = .rehearsal ∧ (s.port p).refusesRehearsal = true)) : (s.acceptMode p m).LaddersHold := by
  have hother : ∀ q, q ≠ p → (s.changeMode p m).port q = s.port q := fun q hq => by
    rw [State.port_changeMode, if_neg hq]
  have hown : (s.changeMode p m).port p = (s.port p).modeChanged m := by rw [State.port_changeMode, if_pos rfl]
  unfold State.acceptMode
  dsimp only
  refine (State.ladderLaw_iff _).mp (State.ladderLaw_afterFreeing fun q => ?_)
  by_cases hlive : m = .live
  · rw [if_pos hlive]
    by_cases hq : q = p
    · subst hq
      refine .inr (State.ladderHolds_ladder fun hoff => ?_)
      rw [hown, Port.modeChanged_mode, hlive] at hoff
      cases hoff
    · rw [State.ladder_port_ne _ hq, hother q hq]
      exact .inl (h q)
  · rw [if_neg hlive]
    by_cases hq : q = p
    · subst hq
      rw [hown]
      exact .inl (Port.ladderHolds_modeChanged (h q) hlive hm)
    · rw [hother q hq]
      exact .inl (h q)

end

/-! ## The law (O12) -/

/-- Every change of the bid state keeps the law at every port. -/
theorem bidChange_laddersHold {c : Instr} {s t : State} (hchange : BidChange c s t) (h : s.LaddersHold) :
    t.LaddersHold := by
  cases hchange with
  | same hsame => exact h.of_same hsame.ports hsame.log
  | elapse n =>
    refine h.of_ports rfl fun q => .inr ?_
    rw [State.port_elapse]
    refine (h q).of_rows (fun hmay => ?_) id (fun hrun => by rw [Port.elapse, hrun]; rfl) fun _ => rfl
    simpa [Port.mayAwardIf, Port.elapse] using hmay
  | counters p f => exact h.mapPort fun hp => hp.of_rows id id id fun _ => rfl
  | accept b e hoff hcheck =>
    refine h.ladder (fun hfull => ?_) (fun q hq => ?_) ?_
    · have hlog : (s.acceptBid b e).log = s.log := by simp [State.acceptBid]
      rw [hlog]; exact hfull
    · rw [State.port_acceptBid, if_neg hq]
    · rw [State.port_acceptBid, if_pos rfl]
      exact fun hmode => absurd hmode hoff
  | withdraw p k tag b hfind =>
    refine State.LaddersHold.of_same (s := s.setPort p ((s.port p).removeQueued k tag)) ?_ (by simp) (by simp)
    refine h.mapPort (f := fun P => P.removeQueued k tag) fun hp => hp.mono id id id (fun l x d hm => ?_) fun d hd => ?_
    · rw [Port.removeQueued, Port.row_mapRow] at hm
      split at hm
      · subst_vars
        simp only [Row.meets, Bool.and_eq_true, Bool.not_eq_true', List.isEmpty_eq_false_iff] at hm ⊢
        exact ⟨⟨hm.1.1, fun hnil => hm.1.2 (by rw [hnil]; rfl)⟩, hm.2⟩
      · exact hm
    · rw [Port.removeQueued, Port.row_mapRow]
      split
      · subst_vars; rw [hd]; rfl
      · exact hd
  | finish p a moved hmode ha => exact h.finish hmode
  | testFinish p a moved hmode ha => exact h.testFinish hmode
  | lapse p a ha => exact h.lapse a
  | gradeUp p g hc hg =>
    unfold State.gradeUp
    dsimp only
    split
    · refine h.ladder id (fun q hq => ?_) ?_
      · rw [State.port_mapPort_ne _ _ hq, State.port_mapPort_ne _ _ hq]
      · rw [State.port_mapPort_same, State.port_mapPort_same]
        exact Port.offHolds_of_frame (h p).off rfl
          (fun d hd => (congrArg Row.queue (Port.row_recomputeShares { s.port p with grade := g } g d)).trans hd) id
    · rename_i hbefore
      rw [State.mapPort_mapPort]
      refine h.mapPort fun hp => hp.mono (fun hmay => ?_) id id (fun l k d hm => ?_) fun d hd => ?_
      · simp only [Port.mayAwardIf, Bool.and_eq_true, bne_iff_ne] at hmay ⊢
        exact ⟨⟨⟨hmay.1.1.1, hbefore⟩, hmay.1.2⟩, hmay.2⟩
      · have hrow := Port.row_recomputeShares { s.port p with grade := g } g d
        have hmeets : ((({ s.port p with grade := g } : Port).recomputeShares g).row d).meets l k = true := hm
        rw [hrow] at hmeets
        exact hmeets
      · exact (congrArg Row.queue (Port.row_recomputeShares { s.port p with grade := g } g d)).trans hd
  | gradeStay p hc hbefore =>
    refine h.mapPort fun hp => hp.of_rows (fun hmay => ?_) id id fun _ => rfl
    simp [Port.mayAwardIf] at hmay
  | gradeFall p hc hbefore =>
    have hdown : (s.mapPort p (fun P => { P with grade := .down })).LaddersHold :=
      h.mapPort fun hp => hp.of_rows (fun hmay => by simp [Port.mayAwardIf] at hmay) id id fun _ => rfl
    unfold State.gradeFall
    dsimp only
    split
    · exact hdown.strand
    · exact hdown.mapPort fun hp => hp.of_rows id id id fun _ => rfl
  | strand p htimer =>
    refine State.LaddersHold.strand ?_
    exact h.mapPort fun hp => hp.of_rows id id id fun _ => rfl
  | forget => exact h.takeForget
  | accrual p hc => exact h.accrual
  | closeRun p => exact h.closeRun
  | settings p pb b x hc hw =>
    unfold State.storeSettings
    dsimp only
    split
    · refine h.ladder id (fun q hq => State.port_mapPort_ne _ _ hq) ?_
      rw [State.port_mapPort_same]
      exact Port.offHolds_of_frame (h p).off rfl (fun _ hd => hd) id
    · rename_i hwindow
      refine h.mapPort fun hp => hp.of_rows (fun hmay => ?_) id id fun _ => rfl
      simp only [Port.mayAwardIf, Bool.and_eq_true, decide_eq_true_eq] at hmay ⊢
      exact ⟨⟨hmay.1.1, hmay.1.2.trans_le (Nat.not_lt.mp hwindow)⟩, hmay.2⟩
  | mode p pb mb m hc hm => exact h.acceptMode hm
  | flush p => exact h.declineQueues .flushed
  | source e eb b x hc hx hlimit => exact h.of_same rfl rfl
  | stage p k x hfree hx hlock => exact h.mapPort fun hp => hp.of_rows id id id fun _ => rfl
  | commit m hok =>
    refine h.of_ports (by rw [State.acceptCommit_eq]) fun q => .inr ?_
    rw [State.port_acceptCommit]
    exact (h q).of_rows id id id fun _ => rfl
  | abort p =>
    refine h.of_ports ?_ fun q => .inr ?_
    · unfold State.abortPort; split <;> rfl
    · rw [State.port_abortPort]
      split
      · rename_i hq
        obtain ⟨rfl, -⟩ := hq
        exact (h q).of_rows id id id fun _ => rfl
      · exact h q
  | lock p k pb cb hc hfree hvalid hprot => exact h.mapPort fun hp => hp.of_rows id id id fun _ => rfl
  | marks l u hlt hle => exact h.of_same (by simp) (by simp)
  | readLog => exact (State.ladderLaw_iff _).mp (State.ladderLaw_afterFreeing fun q => .inl (h q))
  | warm =>
    refine (State.ladderLaw_iff _).mp (State.ladderLaw_afterFreeing fun q => .inl ?_)
    rw [State.port_warmValues]
    exact .of_empty (fun d => Port.row_warm _ d ▸ rfl) rfl

/-- Settles O12: the law with its OFF clause is kept by every change of the bid state. -/
theorem noEligibleBidWaits : Obligations.NoEligibleBidWaits :=
  keptByStep_of_bidChange
    (fun _ s t hchange h => t.ladderLaw_iff.mpr (bidChange_laddersHold hchange (s.ladderLaw_iff.mp h)))
    fun q => (State.ladderLaw_iff _).mpr fun p => by
      rw [State.port_reset]
      exact .of_empty (fun d => Port.row_cold d ▸ rfl) rfl

end Sys2Proof.Machine
end

section
/-! PROOFS. The commit groups (a part of O14): the PENDING ports are those of the groups, each in one group (R12, R18,
R19). -/

namespace Sys2Proof.Machine

/-! ## Sets of ports -/

theorem names_portMask (p q : PortNo) : names (portMask p) q = decide (q = p) := by
  revert p q; decide +kernel

theorem names_and (a b : PortSet) (q : PortNo) : names (a &&& b) q = (names a q && names b q) := BitVec.getLsbD_and

theorem names_or (a b : PortSet) (q : PortNo) : names (a ||| b) q = (names a q || names b q) := BitVec.getLsbD_or

theorem names_not (a : PortSet) (q : PortNo) : names (~~~a) q = !names a q := by
  rw [names, BitVec.getLsbD_not, decide_eq_true q.isLt, Bool.true_and]; rfl

theorem names_zero (q : PortNo) : names 0 q = false := BitVec.getLsbD_zero

/-- A set of ports is the set of the ports that it names. -/
theorem portSet_ext {a b : PortSet} (h : ∀ q, names a q = names b q) : a = b :=
  BitVec.eq_of_getLsbD_eq fun i hi => h ⟨i, hi⟩

theorem portSet_eq_zero {a : PortSet} : a = 0 ↔ ∀ q, names a q = false :=
  ⟨fun h q => h ▸ names_zero q, fun h => portSet_ext fun q => (h q).trans (names_zero q).symm⟩

theorem and_eq_zero {a b : PortSet} : a &&& b = 0 ↔ ∀ q, ¬ (names a q = true ∧ names b q = true) := by
  rw [portSet_eq_zero]
  refine forall_congr' fun q => ?_
  rw [names_and, ← Bool.and_eq_true, Bool.not_eq_true]

/-! ## Groups without a port -/

theorem names_without (g : PortSet) (p q : PortNo) :
    names (g &&& ~~~portMask p) q = true ↔ names g q = true ∧ q ≠ p := by
  rw [names_and, names_not, names_portMask]
  simp

theorem mem_leaveGroup {gs : List PortSet} {p : PortNo} {x : PortSet} :
    x ∈ leaveGroup gs p ↔ (∃ g ∈ gs, g &&& ~~~portMask p = x) ∧ x ≠ 0 := by
  simp [leaveGroup]

/-- The ports of the groups that a port has left are those of the groups, but for that port (R18, R19). -/
theorem names_leaveGroup (gs : List PortSet) (p q : PortNo) :
    (∃ g ∈ leaveGroup gs p, names g q = true) ↔ (∃ g ∈ gs, names g q = true) ∧ q ≠ p := by
  constructor
  · rintro ⟨x, hx, hq⟩
    obtain ⟨⟨g, hg, rfl⟩, -⟩ := mem_leaveGroup.mp hx
    obtain ⟨hgq, hne⟩ := (names_without g p q).mp hq
    exact ⟨⟨g, hg, hgq⟩, hne⟩
  · rintro ⟨⟨g, hg, hgq⟩, hne⟩
    have hq := (names_without g p q).mpr ⟨hgq, hne⟩
    exact ⟨_, mem_leaveGroup.mpr ⟨⟨g, hg, rfl⟩, fun hzero => by rw [hzero, names_zero] at hq; cases hq⟩, hq⟩

theorem leaveGroup_disjoint {gs : List PortSet} (h : gs.Pairwise (fun a b => a &&& b = 0)) (p : PortNo) :
    (leaveGroup gs p).Pairwise (fun a b => a &&& b = 0) := by
  refine (List.Pairwise.map _ (fun a b hab => ?_) h).filter _
  refine and_eq_zero.mpr fun q ⟨ha, hb⟩ => and_eq_zero.mp hab q ?_
  exact ⟨((names_without a p q).mp ha).1, ((names_without b p q).mp hb).1⟩

/-! ## The law -/

section
variable {s t : State}

/-- The commit groups and the statuses are the same. -/
structure State.SameCommits (s t : State) : Prop where
  groups : t.groups = s.groups
  status : ∀ p, (t.port p).commitStatus = (s.port p).commitStatus

theorem State.SameCommits.trans {u : State} (h : s.SameCommits t) (k : t.SameCommits u) : s.SameCommits u :=
  ⟨k.groups.trans h.groups, fun p => (k.status p).trans (h.status p)⟩

theorem sameCommits_of_ports (hgroups : t.groups = s.groups) (hports : t.ports = s.ports) : s.SameCommits t :=
  ⟨hgroups, fun p => by rw [State.port_congr hports]⟩

theorem sameCommits_refl (s : State) : s.SameCommits s := sameCommits_of_ports rfl rfl

theorem sameCommits_of_port {p : PortNo} {P : Port} (hgroups : t.groups = s.groups)
    (hport : ∀ q, t.port q = if q = p then P else s.port q) (hP : P.commitStatus = (s.port p).commitStatus) :
    s.SameCommits t :=
  ⟨hgroups, fun q => by
    rw [hport]
    split
    · subst_vars; exact hP
    · rfl⟩

theorem sameCommits_mapPort (s : State) (p : PortNo) {f : Port → Port}
    (hf : ∀ P : Port, (f P).commitStatus = P.commitStatus) : s.SameCommits (s.mapPort p f) :=
  sameCommits_of_port rfl (fun q => s.port_mapPort p q f) (hf _)

theorem sameCommits_ladder (s : State) (p : PortNo) : s.SameCommits (s.ladder p) := by
  refine ⟨State.ladder_groups s p, fun q => ?_⟩
  by_cases h : q = p
  · subst h
    have hsame := s.ladder_port_same q
    unfold Port.sameOutsideAwards at hsame
    rw [hsame]
  · rw [State.ladder_port_ne s h]

theorem sameCommits_afterFreeing (s : State) (full : Bool) : s.SameCommits (s.afterFreeing full) :=
  State.afterFreeing_keeps (I := fun t => s.SameCommits t) (fun t p h => h.trans (sameCommits_ladder t p)) full
    (sameCommits_refl s)

theorem sameCommits_declineQueues (s : State) (p : PortNo) (cause : Cause) : s.SameCommits (s.declineQueues p cause) :=
  sameCommits_of_port (by simp) (fun q => s.port_declineQueues p q cause) rfl

theorem sameCommits_dropRecords (s : State) (p : PortNo) : s.SameCommits (s.dropRecords p) :=
  sameCommits_of_port (by simp) (fun q => s.port_dropRecords p q) rfl

theorem sameCommits_strand (s : State) (p : PortNo) : s.SameCommits (s.strand p) := by
  have hflag : s.SameCommits (s.mapPort p (fun P => { P with stranded := true })) := sameCommits_mapPort s p fun _ => rfl
  have hclosed := (hflag.trans (sameCommits_declineQueues _ p .portDown)).trans
    (sameCommits_mapPort _ p (f := fun P => { P with run := none }) fun _ => rfl)
  unfold State.strand
  exact hclosed.trans (sameCommits_of_ports (by simp [State.closeRun]) (by simp [State.closeRun]))

theorem sameCommits_finishRecord (s : State) (p : PortNo) (a : AwardRecord) (moved : Nat) :
    s.SameCommits (s.finishRecord p a moved) := by
  refine sameCommits_of_port ?_ (fun q => s.port_finishRecord p a moved q) ?_
  · have hfree : ∀ t : State, (t.freeReserved p).groups = t.groups := fun t => by
      unfold State.freeReserved; split <;> rfl
    unfold State.finishRecord
    dsimp only
    rw [State.returnRecord_groups, hfree]
    split <;> simp
  · unfold Port.finished
    dsimp only
    split <;> rfl

theorem sameCommits_lapseRecord (s : State) (p : PortNo) (a : AwardRecord) : s.SameCommits (s.lapseRecord p a) := by
  have htell : ∀ t : State, (t.tellLapse p a).ports = t.ports ∧ (t.tellLapse p a).groups = t.groups := fun t => by
    unfold State.tellLapse; split <;> simp
  unfold State.lapseRecord
  dsimp only
  refine State.SameCommits.trans ?_ (sameCommits_ladder _ p)
  refine State.SameCommits.trans ?_ (sameCommits_mapPort _ p (f := fun P => P.count _ _ _) fun _ => rfl)
  refine (sameCommits_mapPort s p (f := fun P => P.removeAward a.bid.tag) fun _ => rfl).trans
    (sameCommits_of_ports ?_ ?_)
  · rw [State.reportFault_groups, (htell _).2, State.returnRecord_groups]
  · rw [State.reportFault_ports, (htell _).1, State.returnRecord_ports]

theorem sameCommits_changeMode (s : State) (p : PortNo) (m : Mode) : s.SameCommits (s.changeMode p m) := by
  have hclose : s.SameCommits (((s.declineQueues p .portOff).closeRun p).setMode p .off) :=
    ((sameCommits_declineQueues s p .portOff).trans
      (sameCommits_mapPort _ p (f := fun P => { P with run := none }) fun _ => rfl)).trans
      (sameCommits_mapPort _ p (f := fun P => { P with mode := .off }) fun _ => rfl)
  unfold State.changeMode
  split
  · exact sameCommits_refl s
  · rename_i m' _ _ _ _
    have hfreed : s.SameCommits ((s.dropRecords p).setReserved (s.log.reserved - (s.port p).awards.length)) :=
      (sameCommits_dropRecords s p).trans (sameCommits_of_ports rfl rfl)
    unfold State.leaveRehearsal
    dsimp only
    rw [State.dropRecords_log]
    exact hfreed.trans (sameCommits_mapPort _ p (f := fun P => { P with mode := m' }) fun _ => rfl)
  · exact hclose
  · exact hclose
  · exact sameCommits_mapPort s p fun _ => rfl

theorem sameCommits_takeForget (s : State) : s.SameCommits s.takeForget := by
  have hfold : ∀ (ps : List PortNo) (t : State), t.SameCommits
      (ps.foldl (fun s p => if (s.port p).mode = .rehearsal then s else s.dropRecords p) t) := fun ps => by
    induction ps with
    | nil => exact sameCommits_refl
    | cons p ps ih =>
      intro t
      refine State.SameCommits.trans ?_ (ih _)
      dsimp only
      split
      · exact sameCommits_refl t
      · exact sameCommits_dropRecords t p
  exact (hfold ascending s).trans (sameCommits_of_ports (State.pushSwitch_groups _ _) (State.pushSwitch_ports _ _))

theorem State.GroupsHold.of_same (h : s.GroupsHold) (hsame : s.SameCommits t) : t.GroupsHold := by
  obtain ⟨hpending, hdisjoint, hnonzero⟩ := h
  rw [State.GroupsHold, hsame.groups]
  exact ⟨fun p => by rw [hsame.status]; exact hpending p, hdisjoint, hnonzero⟩

/-- A port that is PENDING no more leaves its group (R18, R19). -/
theorem State.GroupsHold.leave (h : s.GroupsHold) {p : PortNo} (hgroups : t.groups = leaveGroup s.groups p)
    (hown : (t.port p).commitStatus ≠ .pending)
    (hother : ∀ q, q ≠ p → (t.port q).commitStatus = (s.port q).commitStatus) : t.GroupsHold := by
  obtain ⟨hpending, hdisjoint, -⟩ := h
  rw [State.GroupsHold, hgroups]
  refine ⟨fun q => ?_, leaveGroup_disjoint hdisjoint p, fun x hx => (mem_leaveGroup.mp hx).2⟩
  rw [names_leaveGroup, ← hpending q]
  by_cases hq : q = p
  · subst hq; simp [hown]
  · simp [hq, hother q hq]

/-- An accepted COMMIT makes one group of ports that belong to none (R11, R12). -/
theorem State.GroupsHold.acceptCommit (h : s.GroupsHold) {m : PortSet} (hok : s.commitFailure m = none) :
    (s.acceptCommit m).GroupsHold := by
  obtain ⟨hpending, hdisjoint, hnonzero⟩ := h
  have hfree : ∀ q, names m q = true → (s.port q).commitStatus ≠ .pending := fun q hq hstatus =>
    not_refusesCommit_of_accepted hok hq (.inl hstatus)
  have hgroups : (s.acceptCommit m).groups = if m = 0 then s.groups else s.groups ++ [m] := by rw [State.acceptCommit_eq]
  by_cases hm : m = 0
  · rw [if_pos hm] at hgroups
    refine State.GroupsHold.of_same ⟨hpending, hdisjoint, hnonzero⟩ ⟨hgroups, fun q => ?_⟩
    rw [State.port_acceptCommit, hm, names_zero]
    rfl
  · rw [if_neg hm] at hgroups
    rw [State.GroupsHold, hgroups]
    refine ⟨fun q => ?_, ?_, fun g hg => ?_⟩
    · rw [State.port_acceptCommit]
      dsimp only
      simp only [List.mem_append, List.mem_singleton, or_and_right, exists_or, exists_eq_left]
      by_cases hq : names m q = true
      · simp [hq]
      · rw [if_neg hq, hpending q]
        simp [hq]
    · refine List.pairwise_append.mpr ⟨hdisjoint, List.pairwise_singleton _ _, fun a ha b hb => ?_⟩
      rw [List.mem_singleton.mp hb]
      exact and_eq_zero.mpr fun q ⟨haq, hmq⟩ => hfree q hmq ((hpending q).mpr ⟨a, ha, haq⟩)
    · rcases List.mem_append.mp hg with hg | hg
      · exact hnonzero g hg
      · exact List.mem_singleton.mp hg ▸ hm

end

/-- Every change of the bid state keeps the law of the commit groups. -/
theorem bidChange_groupsHold {c : Instr} {s t : State} (hchange : BidChange c s t) (h : s.GroupsHold) : t.GroupsHold := by
  cases hchange with
  | same hsame => exact h.of_same (sameCommits_of_ports hsame.groups hsame.ports)
  | elapse n => exact h.of_same ⟨rfl, fun p => by rw [State.port_elapse]; rfl⟩
  | counters p f => exact h.of_same (sameCommits_mapPort s p fun _ => rfl)
  | accept b e hoff hcheck =>
    refine h.of_same (State.SameCommits.trans ?_ (sameCommits_ladder _ _))
    exact sameCommits_of_port (by simp [State.acceptBid]) (fun q => s.port_acceptBid b e q) rfl
  | withdraw p k tag b hfind =>
    refine h.of_same (State.SameCommits.trans (t := s.setPort p ((s.port p).removeQueued k tag)) ?_
      (sameCommits_of_ports (by simp) (by simp)))
    exact sameCommits_mapPort s p (f := fun P => P.removeQueued k tag) fun _ => rfl
  | finish p a moved hmode ha => exact h.of_same ((sameCommits_finishRecord s p a moved).trans (sameCommits_ladder _ p))
  | testFinish p a moved hmode ha =>
    refine h.of_same ((sameCommits_finishRecord s p a moved).trans ?_)
    unfold State.afterTestFinish
    split
    · exact State.rehearsalOpportunities_keeps (I := fun t => State.SameCommits _ t)
        (fun t p h => h.trans (sameCommits_ladder t p)) (sameCommits_refl _)
    · exact sameCommits_ladder _ p
  | lapse p a ha => exact h.of_same (sameCommits_lapseRecord s p a)
  | gradeUp p g hc hg =>
    have hup : s.SameCommits ((s.mapPort p (fun P => { P with grade := g })).mapPort p
        (fun P => { P.recomputeShares g with holdDownTimer := none, stranded := false })) := by
      rw [State.mapPort_mapPort]
      exact sameCommits_mapPort s p fun _ => rfl
    unfold State.gradeUp
    dsimp only
    split
    · exact h.of_same (hup.trans (sameCommits_ladder _ p))
    · exact h.of_same hup
  | gradeStay p hc hbefore => exact h.of_same (sameCommits_mapPort s p fun _ => rfl)
  | gradeFall p hc hbefore =>
    have hdown : s.SameCommits (s.mapPort p (fun P => { P with grade := .down })) := sameCommits_mapPort s p fun _ => rfl
    unfold State.gradeFall
    dsimp only
    split
    · exact h.of_same (hdown.trans (sameCommits_strand _ p))
    · refine h.of_same (hdown.trans ?_)
      exact sameCommits_mapPort _ p fun _ => rfl
  | strand p htimer =>
    refine h.of_same (State.SameCommits.trans (t := s.mapPort p (fun P => { P with holdDownTimer := none })) ?_
      (sameCommits_strand _ p))
    exact sameCommits_mapPort s p fun _ => rfl
  | forget => exact h.of_same (sameCommits_takeForget s)
  | accrual p hc =>
    have hcommit : (s.applyCommit p).GroupsHold := by
      by_cases hpending : (s.port p).commitStatus = .pending
      · refine h.leave (p := p) (by rw [State.applyCommit_eq hpending]) ?_ fun q hq => ?_
        · rw [State.port_applyCommit hpending, if_pos rfl]
          have hcommitted := (s.port p).committed_status
          generalize (s.port p).committed = P at *
          exact fun hstatus => CommitStatus.noConfusion (hcommitted.symm.trans hstatus)
        · rw [State.port_applyCommit hpending, if_neg hq]
      · rw [State.applyCommit_of_not_pending hpending]; exact h
    refine hcommit.of_same (State.SameCommits.trans ?_ (sameCommits_ladder _ p))
    exact sameCommits_mapPort _ p fun _ => rfl
  | closeRun p => exact h.of_same (sameCommits_mapPort s p fun _ => rfl)
  | settings p pb b x hc hw =>
    have hstored : s.SameCommits (s.mapPort p (fun P => { P with settings := x })) := sameCommits_mapPort s p fun _ => rfl
    unfold State.storeSettings
    dsimp only
    split
    · exact h.of_same (hstored.trans (sameCommits_ladder _ p))
    · exact h.of_same hstored
  | mode p pb mb m hc hm =>
    unfold State.acceptMode
    dsimp only
    refine h.of_same (State.SameCommits.trans ?_ (sameCommits_afterFreeing _ _))
    split
    · exact (sameCommits_changeMode s p m).trans (sameCommits_ladder _ p)
    · exact sameCommits_changeMode s p m
  | flush p => exact h.of_same (sameCommits_declineQueues s p .flushed)
  | source e eb b x hc hx hlimit => exact h.of_same (sameCommits_of_ports rfl rfl)
  | stage p k x hfree hx hlock => exact h.of_same (sameCommits_mapPort s p fun _ => rfl)
  | commit m hok => exact h.acceptCommit hok
  | abort p =>
    by_cases hpending : (s.port p).commitStatus = .pending
    · refine h.leave (p := p) (by rw [State.abortPort, if_pos hpending]) ?_ fun q hq => ?_
      · rw [State.port_abortPort, if_pos ⟨rfl, hpending⟩]
        exact fun hstatus : CommitStatus.aborted = .pending => nomatch hstatus
      · rw [State.port_abortPort, if_neg fun hand => hq hand.1]
    · rw [State.abortPort, if_neg hpending]; exact h
  | lock p k pb cb hc hfree hvalid hprot => exact h.of_same (sameCommits_mapPort s p fun _ => rfl)
  | marks l u hlt hle => exact h.of_same (sameCommits_of_ports (by simp) (by simp))
  | readLog =>
    refine State.GroupsHold.of_same ?_ (sameCommits_afterFreeing _ _)
    exact h.of_same (sameCommits_of_ports rfl rfl)
  | warm =>
    refine State.GroupsHold.of_same ⟨fun p => ?_, List.Pairwise.nil, fun g hg => absurd hg List.not_mem_nil⟩
      (sameCommits_afterFreeing _ _)
    rw [State.port_warmValues]
    exact ⟨fun hstatus : CommitStatus.none = .pending => (nomatch hstatus), fun ⟨g, hg, _⟩ => absurd hg List.not_mem_nil⟩

theorem reset_groupsHold (q : List Instr) : ({ State.reset with pending := q } : State).GroupsHold := by
  refine ⟨fun p => ?_, List.Pairwise.nil, fun g hg => absurd hg List.not_mem_nil⟩
  rw [State.port_reset]
  exact ⟨fun hstatus : CommitStatus.none = .pending => (nomatch hstatus), fun ⟨g, hg, _⟩ => absurd hg List.not_mem_nil⟩

end Sys2Proof.Machine
end

section
/-! PROOFS. The links, the fault record and the queue of commands under every command: what the blocks do reaches the link
units by frames, notices and fault reports only, and every command but the two of the reset line is an event. -/

namespace Sys2Proof.Machine

open Sys2Proof.Wire (Verdict SwIn Examined examine kindOf)

/-! ## The laws of the links -/

/-- The summary flags agree with the held fault (R151). -/
def FaultUnit.FlagsHold (u : FaultUnit) : Prop :=
  (u.moreMajor = true → ∃ f, u.held = some f ∧ f.kind.severity = .major)
    ∧ (u.held = none → u.moreMinor = false ∧ u.moreMajor = false)

/-- The laws of FlagsHold about the check pulse and the fault record. -/
structure State.UnitFlagsHold (s : State) : Prop where
  pulse : s.sw.link = .resync → s.sw.checkPulse = none
  faults : s.faults.FlagsHold

/-- The laws of BoundsHold about the room of the link units. -/
structure State.RoomHolds (s : State) : Prop where
  rx : s.sw.rx.length ≤ 256
  inbound : s.mg.inbound.length ≤ 4
  queue : s.mg.QueueHolds

/-- The queue of commands stays, and the laws of the links are kept. -/
structure State.KeepsLinks (s t : State) : Prop where
  pending : t.pending = s.pending
  flags : s.UnitFlagsHold → t.UnitFlagsHold
  room : s.RoomHolds → t.RoomHolds

theorem State.KeepsLinks.refl (s : State) : s.KeepsLinks s := ⟨rfl, id, id⟩

theorem State.KeepsLinks.trans {s t u : State} (h : s.KeepsLinks t) (k : t.KeepsLinks u) : s.KeepsLinks u :=
  ⟨k.pending.trans h.pending, fun hs => k.flags (h.flags hs), fun hs => k.room (h.room hs)⟩

/-- What an owning block does: the links are kept, and no reply joins or leaves the queue. -/
structure State.Internal (s t : State) : Prop extends s.KeepsLinks t where
  replies : t.mg.replies = s.mg.replies

theorem State.Internal.refl (s : State) : s.Internal s := ⟨.refl s, rfl⟩

theorem State.Internal.trans {s t u : State} (h : s.Internal t) (k : t.Internal u) : s.Internal u :=
  ⟨h.toKeepsLinks.trans k.toKeepsLinks, k.replies.trans h.replies⟩

theorem internal_of_same {s t : State} (hpending : t.pending = s.pending) (hsw : t.sw = s.sw) (hmg : t.mg = s.mg)
    (hfaults : t.faults = s.faults) : s.Internal t := by
  refine ⟨⟨hpending, fun ⟨hpulse, hflags⟩ => ⟨?_, ?_⟩, fun ⟨hrx, hinbound, hqueue⟩ => ⟨?_, ?_, ?_⟩⟩, by rw [hmg]⟩
  · rw [hsw]; exact hpulse
  · rw [hfaults]; exact hflags
  · rw [hsw]; exact hrx
  · rw [hmg]; exact hinbound
  · rw [hmg]; exact hqueue

theorem internal_foldl {α : Type} {f : State → α → State} (hf : ∀ (s : State) a, s.Internal (f s a)) (s : State)
    (l : List α) : s.Internal (l.foldl f s) := by
  induction l generalizing s with
  | nil => exact .refl s
  | cons a l ih => exact (hf s a).trans (ih (f s a))

/-! ## Notices -/

theorem MgUnit.replies_append (u : MgUnit) (q : List MgOut) (x : MgOut) :
    ({ u with outq := q ++ [x] } : MgUnit).replies
      = ({ u with outq := q } : MgUnit).replies + ({ u with outq := [x] } : MgUnit).replies := by
  simp only [MgUnit.replies, List.countP_append]

theorem MgUnit.replies_congr {u v : MgUnit} (h : v.outq = u.outq) : v.replies = u.replies := by
  rw [MgUnit.replies, MgUnit.replies, h]

theorem MgUnit.queueHolds_congr {u v : MgUnit} (h : v.outq = u.outq) (hu : u.QueueHolds) : v.QueueHolds := by
  rw [MgUnit.QueueHolds, MgUnit.replies_congr h, h]
  exact hu

/-- A frame without content that joins the queue stands behind its head or alone. -/
theorem mem_tail_append {q : List MgOut} {x f : MgOut} (hf : f ∈ (q ++ [x]).tail) : f ∈ q.tail ∨ f = x := by
  cases q with
  | nil => exact absurd hf List.not_mem_nil
  | cons y ys =>
    rcases List.mem_append.mp hf with hf | hf
    · exact .inl hf
    · exact .inr (List.mem_singleton.mp hf)

theorem MgUnit.outq_afterCall (u : MgUnit) :
    u.afterCall.outq = u.outq ∨ (u.noticeWaiting = false ∧ u.afterCall.outq = u.outq ++ [.notice none]) := by
  unfold MgUnit.afterCall
  split
  · exact .inl rfl
  · rename_i h; exact .inr ⟨Bool.eq_false_iff.mpr h, rfl⟩

theorem MgUnit.replies_afterCall (u : MgUnit) : u.afterCall.replies = u.replies := by
  rcases u.outq_afterCall with h | ⟨-, h⟩
  · exact MgUnit.replies_congr h
  · simp [MgUnit.replies, h]

theorem MgUnit.QueueHolds.afterCall {u : MgUnit} (hu : u.QueueHolds) : u.afterCall.QueueHolds := by
  have hreplies := u.replies_afterCall
  rcases u.outq_afterCall with h | ⟨hwaiting, h⟩
  · exact MgUnit.queueHolds_congr h hu
  · obtain ⟨hcount, hunsent, htail⟩ := hu
    have hnone : u.outq.countP (fun f => f == .notice none) = 0 := by
      rw [List.countP_eq_zero]
      exact fun f hf => List.any_eq_false.mp hwaiting f hf
    refine ⟨hreplies ▸ hcount, ?_, fun f hf n => ?_⟩
    · rw [h, List.countP_append, hnone]; decide
    · rw [h] at hf
      rcases mem_tail_append hf with hf | rfl
      · exact htail f hf n
      · exact fun heq => nomatch heq

/-- What the cause of a notice leaves of the unit: the queue as a call leaves it, or as it was. -/
theorem MgUnit.afterCause_frame (u : MgUnit) (k : NoticeKind) :
    (u.afterCause k).inbound = u.inbound ∧ ((u.afterCause k).outq = u.outq ∨ (u.afterCause k).outq = u.afterCall.outq) := by
  unfold MgUnit.afterCause MgUnit.afterCall MgUnit.noticeWaiting
  dsimp only
  split
  · split
    · exact ⟨rfl, .inl rfl⟩
    · exact ⟨rfl, .inr rfl⟩
  · exact ⟨rfl, .inl rfl⟩

section
variable (s : State)

/-- A cause of a notice, with whatever it writes into the port sets (R142, R143). -/
theorem internal_cause (n : NoticeRecord) (k : NoticeKind) :
    s.Internal { s with mg := ({ s.mg with notices := n } : MgUnit).afterCause k } := by
  obtain ⟨hinbound, houtq⟩ := ({ s.mg with notices := n } : MgUnit).afterCause_frame k
  have hsame : ({ s.mg with notices := n } : MgUnit).afterCall.outq = s.mg.afterCall.outq := by
    unfold MgUnit.afterCall MgUnit.noticeWaiting
    dsimp only
    split <;> rfl
  have hqueue : s.mg.QueueHolds → (({ s.mg with notices := n } : MgUnit).afterCause k).QueueHolds := fun h =>
    houtq.elim (fun heq => MgUnit.queueHolds_congr heq h)
      fun heq => MgUnit.queueHolds_congr (heq.trans hsame) h.afterCall
  have hreplies : (({ s.mg with notices := n } : MgUnit).afterCause k).replies = s.mg.replies :=
    houtq.elim MgUnit.replies_congr fun heq => (MgUnit.replies_congr (heq.trans hsame)).trans s.mg.replies_afterCall
  exact ⟨⟨rfl, fun h => ⟨h.pulse, h.faults⟩, fun h => ⟨h.rx, hinbound ▸ h.inbound, hqueue h.queue⟩⟩, hreplies⟩

theorem internal_noticeCause (k : NoticeKind) : s.Internal (s.noticeCause k) := by
  rw [State.noticeCause_eq]; exact internal_cause s s.mg.notices k

theorem internal_gradeCause (p : PortNo) : s.Internal (s.gradeCause p) := by
  rw [State.gradeCause, State.noticeCause_eq]; exact internal_cause s _ .grade

theorem internal_strandCause (p : PortNo) : s.Internal (s.strandCause p) := by
  rw [State.strandCause, State.noticeCause_eq]; exact internal_cause s _ .strand

/-! ## Faults and frames to the switch -/

/-- A report keeps the flags: more-major is set by a MAJOR fault behind a held MAJOR fault only (R151). -/
theorem FaultUnit.flagsHold_report {u : FaultUnit} (h : u.FlagsHold) (f : FaultReport) : (u.report f).1.FlagsHold := by
  obtain ⟨hmajor, hempty⟩ := h
  have hseen : ({ u with kindsSeen := u.kindsSeen ||| f.kind.mask } : FaultUnit).FlagsHold := ⟨hmajor, hempty⟩
  unfold FaultUnit.report
  dsimp only
  split
  · exact hseen
  · split
    · rename_i hnone
      refine ⟨fun hm => ?_, fun hsome => nomatch hsome⟩
      rw [(hempty hnone).2] at hm; cases hm
    · rename_i g hheld
      have hnot : ∀ {P : Prop}, u.held = none → P := fun h => by rw [hheld] at h; cases h
      split
      · exact ⟨hmajor, hnot⟩
      · rename_i hg hf
        exact ⟨fun _ => ⟨f, rfl, hf⟩, fun hsome => nomatch hsome⟩
      · rename_i hg hf
        exact ⟨fun _ => ⟨g, hheld, hg⟩, hnot⟩
      · exact ⟨hmajor, hnot⟩

theorem internal_faults (u : FaultUnit) (h : s.faults.FlagsHold → u.FlagsHold) : s.Internal { s with faults := u } :=
  ⟨⟨rfl, fun hs => ⟨hs.pulse, h hs.faults⟩, fun hs => ⟨hs.rx, hs.inbound, hs.queue⟩⟩, rfl⟩

theorem State.reportFault_eq (f : FaultReport) :
    s.reportFault f = if (s.faults.report f).2 then ({ s with faults := (s.faults.report f).1 } : State).noticeCause .fault
      else { s with faults := (s.faults.report f).1 } := rfl

theorem internal_reportFault (f : FaultReport) : s.Internal (s.reportFault f) := by
  have hunit := internal_faults s (s.faults.report f).1 fun h => FaultUnit.flagsHold_report h f
  rw [State.reportFault_eq]
  split
  · exact hunit.trans (internal_noticeCause _ .fault)
  · exact hunit

theorem internal_pushSwitch (f : SwOut) : s.Internal (s.pushSwitch f) :=
  ⟨⟨rfl, fun h => ⟨h.pulse, h.faults⟩, fun h => ⟨h.rx, h.inbound, h.queue⟩⟩, rfl⟩

/-! ## The pool and the award scheduler -/

theorem internal_mapPort (p : PortNo) (f : Port → Port) : s.Internal (s.mapPort p f) := internal_of_same rfl rfl rfl rfl

theorem internal_setPort (p : PortNo) (P : Port) : s.Internal (s.setPort p P) := internal_of_same rfl rfl rfl rfl

theorem internal_evaluatePause : s.Internal s.evaluatePause := by
  unfold State.evaluatePause
  dsimp only
  have hpool : s.Internal { s with pool := { s.pool with pause := s.pool.pauseNext } } := internal_of_same rfl rfl rfl rfl
  split
  · exact hpool.trans (internal_noticeCause _ .pool)
  · exact hpool

theorem internal_returnRecord (r : BidRecord) : s.Internal (s.returnRecord r) :=
  State.Internal.trans (t := (s.setSource r.source { s.source r.source with
    outstanding := (s.source r.source).outstanding - 1 }).setFree (s.pool.free + 1))
    (internal_of_same rfl rfl rfl rfl) (internal_evaluatePause _)

theorem internal_returnRecords (rs : List BidRecord) : s.Internal (s.returnRecords rs) :=
  internal_foldl internal_returnRecord s rs

theorem internal_declineRecord (p : PortNo) (c : Cause) (r : BidRecord) : s.Internal (State.declineRecord p c s r) := by
  have htail : ∀ t : State, t.Internal ((t.returnRecord r).count p .declines (some r.cls) 1) := fun t =>
    (internal_returnRecord t r).trans (internal_mapPort _ p _)
  unfold State.declineRecord
  dsimp only
  split
  · exact htail s
  · exact (internal_pushSwitch s _).trans (htail _)

theorem internal_declineRecords (p : PortNo) (c : Cause) (rs : List BidRecord) : s.Internal (s.declineRecords p c rs) :=
  internal_foldl (fun s r => internal_declineRecord s p c r) s rs

theorem internal_declineQueues (p : PortNo) (c : Cause) : s.Internal (s.declineQueues p c) :=
  (internal_mapPort s p Port.clearQueues).trans (internal_declineRecords _ p c _)

theorem internal_dropRecords (p : PortNo) : s.Internal (s.dropRecords p) :=
  (internal_setPort s p _).trans (internal_returnRecords _ _)

theorem internal_setReserved (n : Nat) : s.Internal (s.setReserved n) := internal_of_same rfl rfl rfl rfl

theorem internal_writeLog (en : LogEntry) : s.Internal (s.writeLog en) := by
  have hlog : s.Internal { s with log := { s.log with entries := s.log.entries ++ [en] } } := internal_of_same rfl rfl rfl rfl
  unfold State.writeLog
  dsimp only
  split
  · exact hlog.trans (internal_noticeCause _ .rehearsal)
  · exact hlog

theorem internal_tellAward (p : PortNo) (x : Selection) (b : BidRecord) : s.Internal (s.tellAward p x b) := by
  unfold State.tellAward
  split
  · exact (internal_writeLog s _).trans (internal_setReserved _ _)
  · exact internal_pushSwitch s _

theorem internal_ladder (p : PortNo) : s.Internal (s.ladder p) := by
  refine State.ladder_keeps (I := fun t => s.Internal t) (fun t h => ?_) (fun t x b rest h haward => ?_) (.refl s)
  · exact h.trans (internal_mapPort t p _)
  · rw [State.award_eq haward.queue]
    exact (h.trans (internal_setPort t p _)).trans (internal_tellAward _ p x b)

theorem internal_rehearsalOpportunities : s.Internal s.rehearsalOpportunities :=
  State.rehearsalOpportunities_keeps (I := fun t => s.Internal t) (fun t p h => h.trans (internal_ladder t p)) (.refl s)

theorem internal_afterFreeing (full : Bool) : s.Internal (s.afterFreeing full) :=
  State.afterFreeing_keeps (I := fun t => s.Internal t) (fun t p h => h.trans (internal_ladder t p)) full (.refl s)

/-! ## The frames of the switch -/

theorem internal_acceptBid (b : BidBody) (e : EntryNo) : s.Internal (s.acceptBid b e) := by
  unfold State.acceptBid
  dsimp only
  refine State.Internal.trans ?_ (internal_evaluatePause _)
  exact internal_of_same rfl rfl rfl rfl

theorem internal_declineBid (b : BidBody) (c : Cause) (e : Option EntryNo) : s.Internal (s.declineBid b c e) := by
  unfold State.declineBid
  dsimp only
  refine State.Internal.trans ?_ ((internal_mapPort _ b.port _).trans (internal_mapPort _ b.port _))
  split
  · exact internal_reportFault s _
  · exact .refl s

theorem internal_takeBid (b : BidBody) : s.Internal (s.takeBid b) := by
  unfold State.takeBid
  split
  · exact (internal_declineBid s b _ _).trans (internal_pushSwitch _ _)
  · exact (internal_acceptBid s b _).trans (internal_ladder _ _)

theorem internal_takeWithdraw (p : PortNo) (tag : Tag) : s.Internal (s.takeWithdraw p tag) := by
  unfold State.takeWithdraw
  dsimp only
  split
  · exact internal_pushSwitch s _
  · split
    · split
      · exact ((internal_setPort s p _).trans (internal_returnRecord _ _)).trans (internal_pushSwitch _ _)
      · exact .refl s
    · split <;> exact internal_pushSwitch s _

theorem internal_freeReserved (p : PortNo) : s.Internal (s.freeReserved p) := by
  unfold State.freeReserved
  split
  · exact internal_setReserved s _
  · exact .refl s

theorem internal_finishRecord (p : PortNo) (a : AwardRecord) (moved : Nat) : s.Internal (s.finishRecord p a moved) := by
  unfold State.finishRecord
  dsimp only
  refine State.Internal.trans ?_ (((internal_mapPort _ p _).trans (internal_freeReserved _ p)).trans
    (internal_returnRecord _ a.bid))
  split
  · exact internal_reportFault s _
  · exact .refl s

theorem internal_strayFinish (p : PortNo) (tag : Tag) (b : Option BidRecord) : s.Internal (s.strayFinish p tag b) :=
  internal_reportFault s _

theorem internal_takeFinish (f : FinishBody) : s.Internal (s.takeFinish f) := by
  unfold State.takeFinish
  dsimp only
  split
  · exact internal_strayFinish s _ _ _
  · split
    · exact (internal_finishRecord s _ _ _).trans (internal_ladder _ _)
    · exact internal_strayFinish s _ _ _

theorem internal_tellLapse (p : PortNo) (a : AwardRecord) : s.Internal (s.tellLapse p a) := by
  unfold State.tellLapse
  split
  · exact (internal_writeLog s _).trans (internal_setReserved _ _)
  · exact internal_pushSwitch s _

theorem internal_lapseRecord (p : PortNo) (a : AwardRecord) : s.Internal (s.lapseRecord p a) := by
  unfold State.lapseRecord
  dsimp only
  exact ((((internal_mapPort s p _).trans (internal_returnRecord _ a.bid)).trans (internal_tellLapse _ p a)).trans
    (internal_reportFault _ _)).trans ((internal_mapPort _ p _).trans (internal_ladder _ p))

theorem internal_closeRun (p : PortNo) : s.Internal (s.closeRun p) := internal_mapPort s p _

theorem internal_strand (p : PortNo) : s.Internal (s.strand p) := by
  unfold State.strand
  exact (((internal_mapPort s p _).trans (internal_declineQueues _ p _)).trans (internal_closeRun _ p)).trans
    ((internal_reportFault _ _).trans (internal_strandCause _ p))

theorem internal_takeGrade (p : PortNo) (g : Grade) : s.Internal (s.takeGrade p g) := by
  have hstored := (internal_mapPort s p (fun P => { P with grade := g })).trans (internal_gradeCause _ p)
  unfold State.takeGrade
  dsimp only
  split
  · refine hstored.trans ?_
    unfold State.gradeUp
    dsimp only
    split
    · exact (internal_mapPort _ p _).trans (internal_ladder _ p)
    · exact internal_mapPort _ p _
  · split
    · refine hstored.trans ?_
      unfold State.gradeFall
      dsimp only
      split
      · exact internal_strand _ p
      · exact internal_mapPort _ p _
    · exact hstored

theorem internal_takeForget : s.Internal s.takeForget := by
  refine State.Internal.trans (internal_foldl (fun s p => ?_) s ascending) (internal_pushSwitch _ _)
  split
  · exact .refl s
  · exact internal_dropRecords s p

theorem internal_applyClass (p : PortNo) (s : State) (c : ClassNo) : s.Internal (State.applyClass p s c) := by
  unfold State.applyClass
  dsimp only
  split
  · exact internal_setPort s p _
  · split
    · exact internal_setPort s p _
    · exact (internal_setPort s p _).trans (internal_declineRecords _ p _ _)

theorem internal_applyCommit (p : PortNo) : s.Internal (s.applyCommit p) := by
  by_cases h : (s.port p).commitStatus = .pending
  · rw [State.applyCommit, if_pos h, State.completeCommit_eq]
    refine (internal_foldl (internal_applyClass p) s ascending).trans ?_
    generalize ascending.foldl (State.applyClass p) s = u
    split
    · exact State.Internal.trans (t := { u.setPort p (u.port p).completed with groups := leaveGroup u.groups p })
        (internal_of_same rfl rfl rfl rfl) (internal_cause _ _ .commit)
    · exact internal_of_same rfl rfl rfl rfl
  · rw [State.applyCommit_of_not_pending h]
    exact .refl s

theorem internal_accrualExpiry (p : PortNo) : s.Internal (s.accrualExpiry p) :=
  ((internal_applyCommit s p).trans (internal_mapPort _ p _)).trans (internal_ladder _ p)

end

end Sys2Proof.Machine
end

section
/-! PROOFS. What the link units themselves do keeps their laws, and every command but the two of the reset line is an event
(a part of O14; O1, O3, O4, O8). -/

namespace Sys2Proof.Machine

open Sys2Proof.Wire (Verdict SwIn Examined examine hunt)

/-! ## The requests -/

section
variable (s : State)

/-- A change of the management unit that leaves its two frame queues. -/
theorem internal_mg {s t : State} (ht : t = { s with mg := t.mg }) (hout : t.mg.outq = s.mg.outq)
    (hin : t.mg.inbound = s.mg.inbound) : s.Internal t := by
  refine ⟨⟨by rw [ht], fun h => ⟨?_, ?_⟩, fun h => ⟨?_, hin ▸ h.inbound, MgUnit.queueHolds_congr hout h.queue⟩⟩,
    MgUnit.replies_congr hout⟩
  · rw [ht]; exact h.pulse
  · rw [ht]; exact h.faults
  · rw [ht]; exact h.rx

theorem keepsLinks_mg {s t : State} (ht : t = { s with mg := t.mg }) (hout : t.mg.outq = s.mg.outq)
    (hin : t.mg.inbound = s.mg.inbound) : s.KeepsLinks t := (internal_mg ht hout hin).toKeepsLinks

theorem internal_portSet (pb : Byte) (b : SettingsBody) : s.Internal (servePortSet pb b s).st := by
  unfold servePortSet
  split
  · exact .refl s
  · split
    · exact .refl s
    · simp only [settingsReply, State.storeSettings]
      split
      · exact (internal_mapPort s _ _).trans (internal_ladder _ _)
      · exact internal_mapPort s _ _

theorem internal_setMode (p : PortNo) (m : Mode) : s.Internal (s.setMode p m) := internal_mapPort s p _

theorem internal_changeMode (p : PortNo) (m : Mode) : s.Internal (s.changeMode p m) := by
  have hoff : s.Internal (((s.declineQueues p .portOff).closeRun p).setMode p .off) :=
    ((internal_declineQueues s p _).trans (internal_closeRun _ p)).trans (internal_setMode _ p _)
  unfold State.changeMode
  split
  · exact .refl s
  · exact ((internal_dropRecords s p).trans (internal_setReserved _ _)).trans (internal_setMode _ p _)
  · exact hoff
  · exact hoff
  · exact internal_setMode s p _

theorem internal_portMode (pb mb : Byte) : s.Internal (servePortMode pb mb s).st := by
  unfold servePortMode
  split
  · exact .refl s
  · split
    · exact .refl s
    · split
      · exact .refl s
      · rename_i p _ _ m _ _
        show s.Internal (s.acceptMode p m)
        unfold State.acceptMode
        dsimp only
        refine (internal_changeMode s p m).trans (State.Internal.trans ?_ (internal_afterFreeing _ _))
        split
        · exact internal_ladder _ p
        · exact .refl _

theorem internal_portFlush (pb : Byte) : s.Internal (servePortFlush pb s).st := by
  unfold servePortFlush
  split
  · exact internal_declineQueues s _ _
  · exact .refl s

theorem internal_sourceSet (eb : Byte) (b : SourceBody) : s.Internal (serveSourceSet eb b s).st := by
  unfold serveSourceSet
  split
  · unfold sourceSet
    split
    · exact .refl s
    · dsimp only
      split
      · exact .refl s
      · exact internal_of_same rfl rfl rfl rfl
    · exact .refl s
  · exact .refl s

theorem internal_contractStage (pb cb : Byte) (b : ContractBody) : s.Internal (serveContractStage pb cb b s).st := by
  unfold serveContractStage
  split
  · split
    · exact .refl s
    · split
      · exact .refl s
      · split
        · exact .refl s
        · exact internal_of_same rfl rfl rfl rfl
  · exact .refl s

theorem internal_commit (m : PortSet) : s.Internal (serveCommit m s).st := by
  unfold serveCommit
  split
  · exact .refl s
  · show s.Internal (s.acceptCommit m)
    have hmarked := internal_foldl (fun s p => internal_mapPort s p fun P => { P with commitStatus := .pending }) s
      (ascending.filter (names m))
    unfold State.acceptCommit
    dsimp only
    split
    · exact .refl s
    · exact hmarked.trans (internal_of_same rfl rfl rfl rfl)

theorem internal_abortPort (p : PortNo) : s.Internal (s.abortPort p) := by
  unfold State.abortPort
  split
  · exact internal_of_same rfl rfl rfl rfl
  · exact .refl s

theorem internal_abortCommit (m : PortSet) : s.Internal (serveAbortCommit m s).st :=
  internal_foldl internal_abortPort s _

theorem internal_lock (pb cb : Byte) : s.Internal (serveLock pb cb s).st := by
  unfold serveLock
  split
  · dsimp only
    split
    · exact .refl s
    · split
      · exact .refl s
      · exact internal_of_same rfl rfl rfl rfl
  · exact .refl s

theorem internal_poolSet (lo hi : BitVec 16) : s.Internal (servePoolSet lo hi s).st := by
  refine State.Internal.trans ?_ (internal_evaluatePause _)
  exact internal_of_same rfl rfl rfl rfl

theorem internal_counterSelect (pb eb cb : Byte) : s.Internal (serveCounterSelect pb eb cb s).st := by
  unfold serveCounterSelect
  split
  · split
    · exact .refl s
    · exact internal_of_same rfl rfl rfl rfl
  · exact .refl s

theorem internal_counterRead (pb rb : Byte) : s.Internal (serveCounterRead pb rb s).st := by
  unfold serveCounterRead
  split
  · exact .refl s
  · exact .refl s
  · dsimp only
    split
    · exact internal_mapPort s _ _
    · exact .refl s

theorem internal_testBid (b : BidBody) : s.Internal (serveTestBid b s).st := by
  unfold serveTestBid
  split
  · exact .refl s
  · split
    · exact internal_declineBid s b _ _
    · exact (internal_acceptBid s b _).trans (internal_ladder _ _)

theorem internal_testFinish (f : FinishBody) : s.Internal (serveTestFinish f s).st := by
  unfold serveTestFinish
  dsimp only
  split
  · exact .refl s
  · split
    · simp only [testFinishReply, State.afterTestFinish]
      split
      · exact (internal_finishRecord s _ _ _).trans (internal_rehearsalOpportunities _)
      · exact (internal_finishRecord s _ _ _).trans (internal_ladder _ _)
    · exact internal_strayFinish s _ _ _

theorem internal_rehearsalRead : s.Internal (serveRehearsalRead s).st :=
  State.Internal.trans (t := { s with log := s.log.afterRead }) (internal_of_same rfl rfl rfl rfl)
    (internal_afterFreeing _ _)

theorem internal_faultClear : s.Internal (serveFaultClear s).st :=
  internal_faults s _ fun _ => ⟨fun h => (nomatch h : False).elim, fun _ => ⟨rfl, rfl⟩⟩

theorem internal_faultMode (v : Byte) : s.Internal (serveFaultMode v s).st := by
  unfold serveFaultMode
  split
  · exact .refl s
  · exact internal_faults s _ id

theorem internal_contractRead (pb cb set : Byte) : s.Internal (serveContractRead pb cb set s).st := by
  unfold serveContractRead
  split
  · dsimp only
    split
    · exact .refl s
    · split <;> exact .refl s
  · exact .refl s

theorem internal_portRead (pb : Byte) : s.Internal (servePortRead pb s).st := by
  unfold servePortRead; split <;> exact .refl s

theorem internal_sourceRead (eb : Byte) : s.Internal (serveSourceRead eb s).st := by
  unfold serveSourceRead; split <;> exact .refl s

theorem internal_queueRead (pb cb : Byte) : s.Internal (serveQueueRead pb cb s).st := by
  unfold serveQueueRead; split <;> exact .refl s

/-! ## Receiving -/

theorem keepsLinks_joinInbound (f : RequestFrame) : s.KeepsLinks (s.joinInbound f) := by
  unfold State.joinInbound
  split
  · rename_i hroom
    exact ⟨rfl, fun h => ⟨h.pulse, h.faults⟩, fun h => ⟨h.rx, by simp; omega, h.queue⟩⟩
  · exact keepsLinks_mg rfl rfl rfl

/-- The assembly takes part in no law of the links. -/
theorem keepsLinks_assembly (a : Option Assembly) : s.KeepsLinks { s with mg := { s.mg with assembly := a } } :=
  keepsLinks_mg rfl rfl rfl

theorem keepsLinks_completeAssembly : s.KeepsLinks s.completeAssembly := by
  unfold State.completeAssembly
  split
  · split
    · exact (keepsLinks_assembly s none).trans (keepsLinks_joinInbound _ _)
    · exact .refl s
  · exact .refl s

theorem keepsLinks_receiveCharacter (c : Byte) : s.KeepsLinks (s.receiveCharacter c) := by
  unfold State.receiveCharacter
  refine (keepsLinks_completeAssembly s).trans ?_
  dsimp only
  split
  · exact keepsLinks_assembly _ _
  · split
    · exact keepsLinks_assembly _ _
    · exact .refl _

theorem keepsLinks_foldl {α : Type} {f : State → α → State} (hf : ∀ (s : State) a, s.KeepsLinks (f s a))
    (l : List α) : s.KeepsLinks (l.foldl f s) := by
  induction l generalizing s with
  | nil => exact .refl s
  | cons a l ih => exact (hf s a).trans (ih (f s a))

theorem keepsLinks_offerRequest (want : Verdict → Bool) (f : RequestFrame) : s.KeepsLinks (s.offerRequest want f) := by
  unfold State.offerRequest
  refine (keepsLinks_completeAssembly s).trans ?_
  dsimp only
  split
  · exact .refl _
  · exact keepsLinks_joinInbound _ f

/-! ## Serving -/

theorem internal_taken : s.Internal s.taken :=
  ⟨⟨rfl, fun h => ⟨h.pulse, h.faults⟩, fun h => ⟨h.rx, (List.tail_sublist _).length_le.trans h.inbound, h.queue⟩⟩, rfl⟩

theorem keepsLinks_callNotice : s.KeepsLinks s.callNotice := by
  rw [State.callNotice_eq]
  refine ⟨rfl, fun h => ⟨h.pulse, h.faults⟩, fun h => ⟨h.rx, ?_, h.queue.afterCall⟩⟩
  have hin : s.mg.afterCall.inbound = s.mg.inbound := by unfold MgUnit.afterCall; split <;> rfl
  exact hin ▸ h.inbound

theorem keepsLinks_queueReply (k : Byte) (r : ReplyResult) (b : List Byte) (o : OnSent) (hroom : s.mg.replies < 15) :
    s.KeepsLinks (s.queueReply k r b o) := by
  refine ⟨rfl, fun h => ⟨h.pulse, h.faults⟩, fun h => ⟨h.rx, h.inbound, ?_⟩⟩
  obtain ⟨-, hunsent, htail⟩ := h.queue
  simp only [MgUnit.replies] at hroom
  refine ⟨?_, ?_, fun f hf n => ?_⟩
  · simp only [MgUnit.replies, State.queueReply, List.countP_append, List.countP_singleton]
    exact hroom
  · simpa [State.queueReply] using hunsent
  · rcases mem_tail_append hf with hf | rfl
    · exact htail f hf n
    · exact fun heq => nomatch heq

theorem keepsLinks_replyWith (k : Byte) (v : Served) (hroom : v.st.mg.replies < 15) : v.st.KeepsLinks (s.replyWith k v) := by
  have hreply := keepsLinks_queueReply v.st k v.result v.body v.onSent hroom
  unfold State.replyWith
  dsimp only
  split
  · exact hreply.trans (keepsLinks_callNotice _)
  · exact hreply

/-- A serving command keeps the links: a frame is served only while the queue has room for its reply (R137). -/
theorem keepsLinks_serve (want : Verdict → Bool) (f : RequestFrame) {act : State → Served}
    (hact : ∀ u : State, u.Internal (act u).st) : s.KeepsLinks (s.serve want f act) := by
  have hoffer := keepsLinks_offerRequest s want f
  rcases serve_cases want f act s with h | ⟨hserves, g, h⟩
  · rw [h]; exact hoffer
  · rw [h]
    obtain ⟨hmay, -⟩ := Bool.and_eq_true_iff.mp hserves
    have hroom := of_decide_eq_true (Bool.and_eq_true_iff.mp hmay).1
    have hacted := (internal_taken (s.offerRequest want f)).trans (hact _)
    exact (hoffer.trans hacted.toKeepsLinks).trans (keepsLinks_replyWith _ _ _ (hacted.replies ▸ hroom))

/-! ## The switch link unit -/

theorem keepsLinks_setRx (rx : List Byte) (h : s.sw.rx.length ≤ 256 → rx.length ≤ 256) : s.KeepsLinks (s.setRx rx) :=
  ⟨rfl, fun hs => ⟨hs.pulse, hs.faults⟩, fun hs => ⟨h hs.rx, hs.inbound, hs.queue⟩⟩

theorem keepsLinks_dropRx (n : Nat) : s.KeepsLinks (s.dropRx n) :=
  keepsLinks_setRx s _ fun h => by rw [List.length_drop]; omega

theorem hunt_suffix (l : List Byte) : hunt l <:+ l := by
  induction l with
  | nil => exact List.suffix_refl _
  | cons b l ih =>
    unfold hunt
    split
    · exact List.suffix_refl _
    · exact ih.trans (List.suffix_cons b l)

theorem keepsLinks_huntRx : s.KeepsLinks s.huntRx := by
  unfold State.huntRx
  split
  · exact keepsLinks_setRx s _ fun h => (hunt_suffix _).length_le.trans h
  · exact .refl s

theorem keepsLinks_loseFraming : s.KeepsLinks s.loseFraming := by
  refine State.KeepsLinks.trans (t := { s with sw := { s.sw with link := .resync, checkPulse := none } }) ?_
    (internal_reportFault _ _).toKeepsLinks
  exact ⟨rfl, fun h => ⟨fun _ => rfl, h.faults⟩, fun h => ⟨h.rx, h.inbound, h.queue⟩⟩

theorem keepsLinks_receiveByte (b : Byte) : s.KeepsLinks (s.receiveByte b) := by
  unfold State.receiveByte
  split
  · exact (keepsLinks_setRx s _ fun _ => by simp; omega).trans (keepsLinks_huntRx _)
  · split
    · exact (keepsLinks_setRx s [] fun _ => by simp).trans (keepsLinks_loseFraming _)
    · exact .refl s

theorem keepsLinks_receiveBytes (bs : List Byte) : s.KeepsLinks (s.receiveBytes bs) :=
  keepsLinks_foldl s keepsLinks_receiveByte bs

theorem keepsLinks_arrive (want : Examined → Bool) (bs : List Byte) : s.KeepsLinks (s.arrive want bs) := by
  unfold State.arrive
  split
  · exact .refl s
  · exact keepsLinks_receiveBytes s bs

theorem keepsLinks_takeFrame (f : SwIn) {handle : State → State} (hhandle : ∀ u : State, u.Internal (handle u)) :
    s.KeepsLinks (State.takeFrame f handle s) := by
  rw [takeFrame_eq]
  refine (keepsLinks_arrive s (isFrame f) f.bytes).trans ?_
  split
  · exact (keepsLinks_dropRx _ _).trans (hhandle _).toKeepsLinks
  · exact .refl _

theorem examining_synced {u : SwitchUnit} (h : u.examining = true) : u.link = .synced := by
  simp [SwitchUnit.examining] at h
  exact h.1

theorem keepsLinks_discardDamaged : s.KeepsLinks s.discardDamaged := by
  unfold State.discardDamaged
  split
  · rename_i hexamining
    have hsynced := examining_synced hexamining
    split
    · rename_i n _
      refine ((keepsLinks_dropRx s n).trans (internal_reportFault _ _).toKeepsLinks).trans
        ⟨rfl, fun h => ⟨fun hresync => ?_, h.faults⟩, fun h => ⟨h.rx, h.inbound, h.queue⟩⟩
      have hlink : s.sw.link = .resync := by simpa [State.startPulse, State.dropRx, State.setRx] using hresync
      rw [hsynced] at hlink
      cases hlink
    · exact .refl s
  · exact .refl s

theorem keepsLinks_discardLost : s.KeepsLinks s.discardLost := by
  unfold State.discardLost
  split
  · exact ((keepsLinks_dropRx s 1).trans (keepsLinks_loseFraming _)).trans (keepsLinks_huntRx _)
  · exact .refl s

theorem keepsLinks_endResync : s.KeepsLinks s.endResync := by
  refine State.KeepsLinks.trans (t := { s with sw := { s.sw with rx := (hunt s.sw.rx).drop 3, link := .synced } }) ?_
    (internal_pushSwitch _ _).toKeepsLinks
  refine ⟨rfl, fun h => ⟨fun hlink => (nomatch hlink : False).elim, h.faults⟩, fun h => ⟨?_, h.inbound, h.queue⟩⟩
  have hhunt := (hunt_suffix s.sw.rx).length_le
  have hrx := h.rx
  show ((hunt s.sw.rx).drop 3).length ≤ 256
  rw [List.length_drop]
  omega

/-! ## Time, sending and the end of an event -/

theorem keepsLinks_elapse (n : Nat) : s.KeepsLinks (s.elapse n) := by
  refine ⟨rfl, fun h => ⟨fun hlink => ?_, h.faults⟩, fun h => ⟨h.rx, h.inbound, h.queue⟩⟩
  have hnone := h.pulse hlink
  simp [State.elapse, hnone]

theorem MgUnit.QueueHolds.of_tail {u : MgUnit} {f : MgOut} {rest : List MgOut} (h : u.QueueHolds)
    (hq : u.outq = f :: rest) {v : MgUnit} (hv : v.outq = rest) : v.QueueHolds := by
  obtain ⟨hcount, hunsent, htail⟩ := h
  simp only [MgUnit.replies] at hcount
  rw [hq] at hcount hunsent htail
  simp only [List.countP_cons] at hcount hunsent
  refine ⟨?_, ?_, fun g hg n => htail g (List.mem_of_mem_tail (hv ▸ hg)) n⟩
  · simp only [MgUnit.replies, hv]; omega
  · rw [hv]; omega

theorem keepsLinks_frameSent : s.KeepsLinks s.frameSent := by
  unfold State.frameSent
  split
  · split
    · exact .refl s
    · rename_i f rest hq
      have hsent : s.KeepsLinks { s with mg := { s.mg with outq := rest, sending := false } } :=
        ⟨rfl, fun h => ⟨h.pulse, h.faults⟩, fun h => ⟨h.rx, h.inbound, h.queue.of_tail hq rfl⟩⟩
      dsimp only
      split
      · refine hsent.trans ?_
        unfold State.replySent
        split
        · exact .refl _
        · exact keepsLinks_mg rfl rfl rfl
        · exact keepsLinks_mg rfl rfl rfl
      · exact hsent
  · exact .refl s

/-- The frames that begin: the queue keeps its law, as only the head takes content. -/
theorem beginFrames_queueHolds (b : Bool) (n : NoticeRecord) {u v : MgUnit} (hu : u.QueueHolds)
    (hv : v.outq = (beginFrames b n u.outq).1) : v.QueueHolds := by
  generalize hq : u.outq = q at hv
  induction q generalizing u with
  | nil => exact MgUnit.queueHolds_congr (hv.trans hq.symm) hu
  | cons f rest ih =>
    match f with
    | .reply _ => exact MgUnit.queueHolds_congr (hv.trans hq.symm) hu
    | .notice (some _) => exact MgUnit.queueHolds_congr (hv.trans hq.symm) hu
    | .notice none =>
      unfold beginFrames at hv
      split at hv
      · obtain ⟨hcount, hunsent, htail⟩ := hu
        simp only [MgUnit.replies] at hcount
        rw [hq] at hcount hunsent htail
        simp only [List.countP_cons] at hcount hunsent
        refine ⟨?_, ?_, fun g hg => htail g ?_⟩
        · rw [MgUnit.replies, hv, List.countP_cons]; exact hcount
        · rw [hv, List.countP_cons]
          exact (Nat.le_of_lt_succ hunsent).trans (Nat.zero_le 1)
        · rw [hv] at hg; exact hg
      · exact ih (u := { u with outq := rest }) (hu.of_tail hq rfl) rfl hv

theorem keepsLinks_beginManagement : s.KeepsLinks s.beginManagement := by
  unfold State.beginManagement
  split
  · exact .refl s
  · exact ⟨rfl, fun h => ⟨h.pulse, h.faults⟩, fun h => ⟨h.rx, h.inbound, beginFrames_queueHolds _ _ h.queue rfl⟩⟩

theorem keepsLinks_settle : s.KeepsLinks s.settle :=
  (keepsLinks_beginManagement s).trans ⟨rfl, fun h => ⟨h.pulse, h.faults⟩, fun h => ⟨h.rx, h.inbound, h.queue⟩⟩

theorem keepsLinks_sendUntilReset (n : Nat) : s.KeepsLinks (State.sendUntilReset n s) := by
  induction n generalizing s with
  | zero => exact .refl s
  | succ n ih =>
    unfold State.sendUntilReset
    split
    · exact ((keepsLinks_beginManagement s).trans (keepsLinks_frameSent _)).trans (ih _)
    · exact .refl s

theorem MgUnit.queueHolds_warm {u : MgUnit} (h : u.QueueHolds) : u.warm.QueueHolds := by
  obtain ⟨hcount, hunsent, htail⟩ := h
  have hsub : (u.outq.filter (fun f => f != .notice none)).Sublist u.outq := List.filter_sublist
  refine ⟨(hsub.countP_le).trans hcount, (hsub.countP_le).trans hunsent, fun f hf n => htail f ?_ n⟩
  have htails : (u.outq.filter (fun f => f != .notice none)).tail.Sublist u.outq.tail := hsub.tail
  exact htails.subset hf

theorem keepsLinks_warmReset : s.KeepsLinks s.warmReset := by
  refine State.KeepsLinks.trans (t := s.warmValues) ⟨rfl, fun h => ⟨h.pulse, ?_⟩, fun h => ?_⟩
    (internal_afterFreeing _ _).toKeepsLinks
  · exact ⟨fun hmore => (nomatch hmore : False).elim, fun _ => ⟨rfl, rfl⟩⟩
  · exact ⟨h.rx, h.inbound, MgUnit.queueHolds_warm h.queue⟩

end

end Sys2Proof.Machine
end

section
/-! PROOFS. Every command but the two of the reset line is an event that keeps the links; with this the queue of commands,
the pins and the laws of the links (O1, O3, O4, O8, O14), and all laws at reset (O7). -/

namespace Sys2Proof.Machine

open Sys2Proof.Wire (Verdict SwIn Examined examine)

/-- The outcome is that of an event whose effect keeps the links. -/
def IsEvent (o : Host.Outcome State Fault Refusal) (s : State) : Prop :=
  ∃ f : State → State, o = event f s ∧ s.KeepsLinks (f s)

section
variable {s : State}

theorem isEvent_of {f : State → State} (hf : s.KeepsLinks (f s)) : IsEvent (event f s) s := ⟨f, rfl, hf⟩

theorem isEvent_serve {want : Verdict → Bool} {f : RequestFrame} {act : State → Served}
    (hact : ∀ u : State, u.Internal (act u).st) : IsEvent (event (State.serve want f act) s) s :=
  isEvent_of (keepsLinks_serve s want f hact)

theorem isEvent_takeFrame {f : SwIn} {handle : State → State} (hhandle : ∀ u : State, u.Internal (handle u)) :
    IsEvent (event (State.takeFrame f handle) s) s := isEvent_of (keepsLinks_takeFrame s f hhandle)

theorem isEvent_syncResyncEnd : IsEvent (execSyncResyncEnd s) s := by
  refine isEvent_of ?_
  have hend : ∀ u : State, u.KeepsLinks (if u.atSync then u.endResync else u) := fun u => by
    split
    · exact keepsLinks_endResync u
    · exact .refl u
  split
  · exact .refl s
  · dsimp only
    refine State.KeepsLinks.trans ?_ (hend _)
    split
    · exact .refl s
    · exact keepsLinks_receiveBytes s _

theorem isEvent_syncInSynced : IsEvent (execSyncInSynced s) s := by
  refine isEvent_of ?_
  split
  · exact keepsLinks_takeFrame s .sync .refl
  · exact .refl s

theorem isEvent_checkPulseExpiry : IsEvent (execCheckPulseExpiry s) s := by
  refine isEvent_of ?_
  split
  · rename_i n _
    exact (keepsLinks_elapse s n).trans ⟨rfl, fun h => ⟨fun _ => rfl, h.faults⟩, fun h => ⟨h.rx, h.inbound, h.queue⟩⟩
  · exact .refl s

theorem isEvent_swOutboundFrameSent : IsEvent (execSwOutboundFrameSent s) s := by
  refine isEvent_of ?_
  dsimp only
  split
  · exact ⟨rfl, fun h => ⟨h.pulse, h.faults⟩, fun h => ⟨h.rx, h.inbound, h.queue⟩⟩
  · exact .refl s

theorem isEvent_accrualTimerExpiry {p : PortNo} : IsEvent (execAccrualTimerExpiry p s) s := by
  refine isEvent_of ?_
  exact (keepsLinks_elapse s _).trans (internal_accrualExpiry _ p).toKeepsLinks

theorem isEvent_runTimerExpiry {p : PortNo} : IsEvent (execRunTimerExpiry p s) s := by
  refine isEvent_of ?_
  split
  · exact (keepsLinks_elapse s _).trans (internal_closeRun _ p).toKeepsLinks
  · exact .refl s

theorem isEvent_deadlineExpiry {p : PortNo} {tag : Tag} : IsEvent (execDeadlineExpiry p tag s) s := by
  refine isEvent_of ?_
  split
  · exact (keepsLinks_elapse s _).trans (internal_lapseRecord _ p _).toKeepsLinks
  · exact .refl s

theorem isEvent_holdDownExpiry {p : PortNo} : IsEvent (execHoldDownExpiry p s) s := by
  refine isEvent_of ?_
  split
  · exact (keepsLinks_elapse s _).trans ((internal_mapPort _ p _).trans (internal_strand _ p)).toKeepsLinks
  · exact .refl s

theorem isEvent_requestFrameComplete {chars : List Byte} : IsEvent (execRequestFrameComplete chars s) s := by
  refine isEvent_of ?_
  refine State.KeepsLinks.trans ?_ (keepsLinks_completeAssembly _)
  split
  · exact .refl s
  · exact keepsLinks_foldl s keepsLinks_receiveCharacter _

theorem isEvent_frameAbandoned : IsEvent (execFrameAbandoned s) s := by
  refine isEvent_of ?_
  split
  · split
    · exact .refl s
    · exact (keepsLinks_elapse s _).trans ((keepsLinks_assembly _ none).trans (keepsLinks_joinInbound _ _))
  · exact .refl s

theorem isEvent_warmReset : IsEvent (execWarmReset s) s := by
  refine isEvent_of ?_
  have hsent := keepsLinks_sendUntilReset s s.mg.outq.length
  dsimp only
  split
  · exact hsent.trans (keepsLinks_warmReset _)
  · exact hsent

/-- Every command but the two of the reset line is an event that keeps the links. -/
theorem isEvent_of_ne {c : Instr} (hassert : c ≠ .coldResetAssert) (hrelease : c ≠ .coldResetRelease) :
    IsEvent (exec c s) s := by
  cases c with
  | swByteReceived b => exact isEvent_of (f := fun s => s.receiveByte b) (keepsLinks_receiveByte s b)
  | examinationResume => exact isEvent_of (keepsLinks_huntRx s)
  | damagedFrame bytes =>
    exact isEvent_of (f := fun s => (s.arrive isDamaged bytes).discardDamaged) ((keepsLinks_arrive s _ _).trans (keepsLinks_discardDamaged _))
  | lossOfFraming bytes =>
    exact isEvent_of (f := fun s => (s.arrive isLost bytes).discardLost) ((keepsLinks_arrive s _ _).trans (keepsLinks_discardLost _))
  | syncResyncEnd => exact isEvent_syncResyncEnd
  | syncInSynced => exact isEvent_syncInSynced
  | bid body => exact isEvent_takeFrame fun u => internal_takeBid u body
  | withdraw p tag => exact isEvent_takeFrame fun u => internal_takeWithdraw u p tag
  | finish body => exact isEvent_takeFrame fun u => internal_takeFinish u body
  | grade p g => exact isEvent_takeFrame fun u => internal_takeGrade u p g
  | forget => exact isEvent_takeFrame internal_takeForget
  | checkPulseExpiry => exact isEvent_checkPulseExpiry
  | swOutboundFrameSent => exact isEvent_swOutboundFrameSent
  | accrualTimerExpiry p => exact isEvent_accrualTimerExpiry
  | runTimerExpiry p => exact isEvent_runTimerExpiry
  | deadlineExpiry p tag => exact isEvent_deadlineExpiry
  | holdDownExpiry p => exact isEvent_holdDownExpiry
  | requestFrameComplete chars => exact isEvent_requestFrameComplete
  | frameAbandoned => exact isEvent_frameAbandoned
  | badFrameRequest f => exact isEvent_serve fun u => .refl u
  | unknownKindRequest chars => exact isEvent_serve fun u => .refl u
  | mgFrameSent => exact isEvent_of (keepsLinks_frameSent s)
  | identify => exact isEvent_serve fun u => .refl u
  | lineRate d => exact isEvent_serve fun u => internal_mg rfl rfl rfl
  | status => exact isEvent_serve fun u => .refl u
  | noticeEnable k => exact isEvent_serve fun u => internal_mg rfl rfl rfl
  | noticeAck k => exact isEvent_serve fun u => internal_mg rfl rfl rfl
  | reset => exact isEvent_serve fun u => internal_mg rfl rfl rfl
  | warmReset => exact isEvent_warmReset
  | coldResetAssert => exact absurd rfl hassert
  | coldResetRelease => exact absurd rfl hrelease
  | portSet pb b => exact isEvent_serve fun u => internal_portSet u pb b
  | portRead pb => exact isEvent_serve fun u => internal_portRead u pb
  | portMode pb mb => exact isEvent_serve fun u => internal_portMode u pb mb
  | portFlush pb => exact isEvent_serve fun u => internal_portFlush u pb
  | sourceSet eb b => exact isEvent_serve fun u => internal_sourceSet u eb b
  | sourceRead eb => exact isEvent_serve fun u => internal_sourceRead u eb
  | contractStage pb cb b => exact isEvent_serve fun u => internal_contractStage u pb cb b
  | contractRead pb cb set => exact isEvent_serve fun u => internal_contractRead u pb cb set
  | commit m => exact isEvent_serve fun u => internal_commit u m
  | abortCommit m => exact isEvent_serve fun u => internal_abortCommit u m
  | lock pb cb => exact isEvent_serve fun u => internal_lock u pb cb
  | queueRead pb cb => exact isEvent_serve fun u => internal_queueRead u pb cb
  | poolSet lo hi => exact isEvent_serve fun u => internal_poolSet u lo hi
  | poolRead => exact isEvent_serve fun u => .refl u
  | faultRead => exact isEvent_serve fun u => .refl u
  | faultClear => exact isEvent_serve internal_faultClear
  | faultMode v => exact isEvent_serve fun u => internal_faultMode u v
  | counterSelect pb eb cb => exact isEvent_serve fun u => internal_counterSelect u pb eb cb
  | counterRead pb rb => exact isEvent_serve fun u => internal_counterRead u pb rb
  | testBid b => exact isEvent_serve fun u => internal_testBid u b
  | testFinish f => exact isEvent_serve fun u => internal_testFinish u f
  | rehearsalRead => exact isEvent_serve internal_rehearsalRead
  | mgCharacterReceived ch => exact isEvent_of (f := fun s => s.receiveCharacter ch) (keepsLinks_receiveCharacter s ch)

/-! ## What a step can be -/

/-- A command leaves the state as it is while RST_N is low, or its event ends settled, or it is one of the reset line. -/
theorem exec_cases {c : Instr} {t : State} (h : exec c s = .next t) :
    (s.pins.rstN = true ∧ ∃ u, t = u.settle ∧ s.KeepsLinks u) ∨ (s.pins.rstN = false ∧ t = s)
      ∨ execColdResetAssert s = .next t ∨ t = { State.reset with pending := s.pending } := by
  by_cases hassert : c = .coldResetAssert
  · subst hassert; exact .inr (.inr (.inl h))
  · by_cases hrelease : c = .coldResetRelease
    · subst hrelease; cases h; exact .inr (.inr (.inr rfl))
    · obtain ⟨f, hevent, hf⟩ := isEvent_of_ne (s := s) hassert hrelease
      rw [hevent] at h
      cases hpin : s.pins.rstN with
      | true => rw [event_high hpin] at h; cases h; exact .inl ⟨rfl, _, rfl, hf⟩
      | false =>
        unfold event at h
        rw [hpin] at h
        cases h
        exact .inr (.inl ⟨rfl, rfl⟩)

end

/-- A law is kept by every step if the passage of time, the settled events and the commands of the reset line keep it, and
if it does not speak of the queue of commands. -/
theorem keptByStep_of_exec {Law : State → Prop} (hqueue : ∀ (s : State) q, Law s → Law { s with pending := q })
    (htick : ∀ s : State, s.pins.rstN = true → Law s → Law (s.elapse 1))
    (hevent : ∀ s u : State, s.pins.rstN = true → s.KeepsLinks u → Law s → Law u.settle)
    (hassert : ∀ s t : State, execColdResetAssert s = .next t → Law s → Law t)
    (hreset : Law State.reset) : KeptByStep Law := by
  intro s t hs hstep
  unfold step at hstep
  split at hstep
  · cases hstep
    unfold State.tick
    split
    · rename_i hpin
      exact htick s (Bool.and_eq_true_iff.mp hpin).1 hs
    · exact hs
  · rename_i c rest _
    rcases exec_cases hstep with ⟨hpin, u, rfl, hu⟩ | ⟨-, rfl⟩ | hcold | rfl
    · exact hevent _ u hpin hu (hqueue s rest hs)
    · exact hqueue s rest hs
    · exact hassert _ t hcold (hqueue s rest hs)
    · exact hqueue _ _ hreset

/-! ## The queue of commands and the reset line -/

/-- Settles O1: the definition of a step. -/
theorem stepRunsTheFrontCommand : Obligations.StepRunsTheFrontCommand := by
  intro s c rest h
  unfold step
  rw [h]

/-- Settles O3: an event keeps the queue with the links, and the commands of the reset line keep it by their definition. -/
theorem commandsKeepTheQueue : Obligations.CommandsKeepTheQueue := by
  intro c s t h
  rcases exec_cases h with ⟨-, u, rfl, hu⟩ | ⟨-, rfl⟩ | hcold | rfl
  · rw [State.settle_pending, hu.pending]
  · rfl
  · cases hcold; rfl
  · rfl

/-- Settles O4: every other command is an event, and there is none while RST_N is low. -/
theorem noEventWhileResetIsLow : Obligations.NoEventWhileResetIsLow := by
  intro c s hpin hassert hrelease
  obtain ⟨f, hevent, -⟩ := isEvent_of_ne (s := s) hassert hrelease
  rw [hevent, event, hpin]
  rfl

/-! ## The pins -/

theorem pinLevels_rstN (s : State) : s.pinLevels.rstN = s.pins.rstN := by
  unfold State.pinLevels
  split
  · rename_i h; exact h.symm
  · rename_i h; exact (Bool.eq_false_of_not_eq_true h).symm

/-- The levels follow RST_N, the notices, the switch link and the pool only. -/
theorem pinLevels_congr {s t : State} (hpin : t.pins.rstN = s.pins.rstN) (hattn : t.attnLevel = s.attnLevel)
    (halert : t.sw.alertLow = s.sw.alertLow) (hpause : t.pool.pause = s.pool.pause) : t.pinLevels = s.pinLevels := by
  rw [State.pinLevels, State.pinLevels, hpin, hattn, halert, hpause]

theorem pinsFollow_drivePins (s : State) : s.drivePins.PinsFollow :=
  (pinLevels_congr (s := s) (t := s.drivePins) (pinLevels_rstN s) rfl rfl rfl).symm

/-- Settles O8: the pins are driven at the end of every event, and the passage of time moves no level. -/
theorem pinsFollowTheState : Obligations.PinsFollowTheState := by
  refine keptByStep_of_exec (fun s q h => h) (fun s _ h => ?_) (fun s u _ _ _ => pinsFollow_drivePins _)
    (fun s t h _ => ?_) rfl
  · have hlevels : (s.elapse 1).pinLevels = s.pinLevels :=
      pinLevels_congr rfl rfl (by simp [SwitchUnit.alertLow, State.elapse]) rfl
    exact h.trans hlevels.symm
  · cases h
    exact pinsFollow_drivePins _

/-! ## Groups, flags and bounds -/

theorem unitFlagsHold_reset : State.reset.UnitFlagsHold :=
  ⟨fun _ => rfl, fun h => (nomatch h : False).elim, fun _ => ⟨rfl, rfl⟩⟩

theorem queueHolds_of_empty {u : MgUnit} (h : u.outq = []) : u.QueueHolds := by
  refine ⟨?_, ?_, fun f hf => ?_⟩
  · simp [MgUnit.replies, h]
  · simp [h]
  · rw [h] at hf; exact absurd hf List.not_mem_nil

theorem roomHolds_reset : State.reset.RoomHolds := ⟨Nat.zero_le _, Nat.zero_le _, queueHolds_of_empty rfl⟩

theorem keptByStep_unitFlags : KeptByStep State.UnitFlagsHold := by
  refine keptByStep_of_exec (fun s q h => ⟨h.pulse, h.faults⟩) (fun s _ h => (keepsLinks_elapse s 1).flags h)
    (fun s u _ hu h => (keepsLinks_settle u).flags (hu.flags h)) (fun s t hcold h => ?_) unitFlagsHold_reset
  cases hcold
  exact ⟨fun _ => rfl, h.faults⟩

theorem keptByStep_room : KeptByStep State.RoomHolds := by
  refine keptByStep_of_exec (fun s q h => ⟨h.rx, h.inbound, h.queue⟩) (fun s _ h => (keepsLinks_elapse s 1).room h)
    (fun s u _ hu h => (keepsLinks_settle u).room (hu.room h)) (fun s t hcold h => ?_) roomHolds_reset
  cases hcold
  exact ⟨Nat.zero_le _, Nat.zero_le _, queueHolds_of_empty rfl⟩

theorem keptByStep_conditions : KeptByStep fun s => ∀ p, (s.port p).ConditionHolds :=
  keptByStep_of_portChange (fun _ _ _ _ => portChange_conditionHolds) Port.conditionHolds_cold

theorem keptByStep_windows : KeptByStep fun s => ∀ p, (s.port p).WindowHolds :=
  keptByStep_of_portChange (fun _ _ _ _ => portChange_windowHolds) Port.windowHolds_cold

/-- The ranges of the source entries and of the marks. -/
def State.SourcesHold (s : State) : Prop :=
  (∀ e : EntryNo, (s.source e).InRange) ∧ s.pool.lowMark < s.pool.highMark ∧ s.pool.highMark ≤ 2048

theorem sourcesHold_reset (q : List Instr) : ({ State.reset with pending := q } : State).SourcesHold := by
  have hpool : Pool.cold.lowMark < Pool.cold.highMark ∧ Pool.cold.highMark ≤ 2048 := by decide
  refine ⟨fun e => ?_, hpool⟩
  have hcold : ({ State.reset with pending := q } : State).source e = .cold := by simp [State.source, State.reset]
  have hrange : 1 ≤ SourceEntry.cold.limit ∧ SourceEntry.cold.limit ≤ 255 ∧ SourceEntry.cold.outstanding ≤ 255 := by decide
  rw [hcold]
  exact hrange

theorem keptByStep_sources : KeptByStep State.SourcesHold := by
  refine keptByStep_of_bidChange (fun c s t hchange ⟨hentries, hlt, hle⟩ => ?_) sourcesHold_reset
  obtain ⟨hsource, hmarks⟩ := sourcesChange_of_bidChange hchange
  refine ⟨fun e => ?_, ?_⟩
  · have hchanges := hsource e
    have hentry := hentries e
    generalize t.source e = y at hchanges ⊢
    induction hchanges with
    | refl => exact hentry
    | tail _ hstep ih => exact sourceChange_inRange hstep ih
  · rcases hmarks with ⟨hlow, hhigh⟩ | hnew
    · rw [hlow, hhigh]; exact ⟨hlt, hle⟩
    · exact hnew

/-- Settles O14: the groups by the changes of the bid state, the conditions and windows by those of a port, the sources by
their own changes, and the rest by the laws of the links. -/
theorem groupsFlagsAndBoundsHold : Obligations.GroupsFlagsAndBoundsHold := by
  refine ⟨keptByStep_of_bidChange (fun _ _ _ => bidChange_groupsHold) reset_groupsHold, ?_, ?_⟩
  · intro s t ⟨hconditions, hpulse, hfaults⟩ hstep
    have hflags := keptByStep_unitFlags s t ⟨hpulse, hfaults⟩ hstep
    exact ⟨keptByStep_conditions s t hconditions hstep, hflags.pulse, hflags.faults⟩
  · intro s t ⟨hwindows, hentries, hlt, hle, hrx, hinbound, hqueue⟩ hstep
    have hroom := keptByStep_room s t ⟨hrx, hinbound, hqueue⟩ hstep
    obtain ⟨hentries', hlt', hle'⟩ := keptByStep_sources s t ⟨hentries, hlt, hle⟩ hstep
    exact ⟨keptByStep_windows s t hwindows hstep, hentries', hlt', hle', hroom.rx, hroom.inbound, hroom.queue⟩

/-- A law of a port holds at reset where its cold value meets it. -/
theorem port_reset_law {Law : Port → Prop} (hcold : Law .cold) (p : PortNo) : Law (State.reset.port p) := by
  have hport : State.reset.port p = .cold := State.port_reset [] p
  rw [hport]
  exact hcold

/-- Settles O7: every law at the cold values. -/
theorem lawsHoldAtReset : Obligations.LawsHoldAtReset := by
  obtain ⟨hpulse, hfaults⟩ := unitFlagsHold_reset
  obtain ⟨hrx, hinbound, hqueue⟩ := roomHolds_reset
  obtain ⟨hentries, hlt, hle⟩ := sourcesHold_reset []
  have hempty : Port.cold.AccountsBounded :=
    fun c => Port.row_cold c ▸ Row.bounded_zero rfl rfl rfl rfl fun _ hb => absurd hb List.not_mem_nil
  have hladder := State.reset.ladderLaw_iff.mpr
    (port_reset_law (Law := fun P => P.LadderHolds _) (.of_empty (fun d => Port.row_cold d ▸ rfl) rfl))
  have hawards := State.reset.rehearsalAwards_of_no_awards (port_reset_law (Law := fun P => P.awards = []) rfl)
  refine ⟨rfl, (State.holding_nil _).mp (reset_holding []), port_reset_law (Law := Port.TagsUnique) (.of_none Port.records_cold),
    port_reset_law hempty, hladder, port_reset_law Port.locksHold_cold,
    port_reset_law (Law := Port.TablesHold) ⟨Port.rowsHold_cold, Port.sharesHold_cold⟩, reset_groupsHold [], ?_, ?_, ?_⟩
  · exact ⟨port_reset_law Port.conditionHolds_cold, hpulse, hfaults⟩
  · exact ⟨port_reset_law Port.windowHolds_cold, hentries, hlt, hle, hrx, hinbound, hqueue⟩
  · exact ⟨Nat.zero_le _, hawards.symm⟩

end Sys2Proof.Machine
end

section
/-! PROOFS. The passage of one microsecond (O2), the fault record (O17), the causes of notices (O18), the end of an event
(O19) and the lookup of the source map (O32). -/

namespace Sys2Proof.Machine

/-! ## One microsecond -/

theorem State.timerDue_port {s : State} (h : s.timerDue = false) (p : PortNo) : (s.port p).timerDue = false := by
  simp only [State.timerDue, Bool.or_eq_false_iff] at h
  exact Bool.eq_false_of_not_eq_true (List.any_eq_false.mp h.1.1 _ (Vector.mem_toList_iff.mpr (Vector.getElem_mem _)))

theorem State.timerDue_links {s : State} (h : s.timerDue = false) :
    s.sw.checkPulse ≠ some 0 ∧ ∀ a, s.mg.assembly = some a → a.gapDue = false := by
  simp only [State.timerDue, Bool.or_eq_false_iff, beq_eq_false_iff_ne] at h
  refine ⟨h.1.2, fun a ha => ?_⟩
  have hgap := h.2
  rw [ha] at hgap
  exact hgap

/-- Of an optional timer with time left, 1 µs passes and can be given back. -/
theorem map_add_map_sub {x : Option Nat} (h : x ≠ some 0) : x = (x.map (· - 1)).map (· + 1) := by
  cases x with
  | none => rfl
  | some n =>
    have hn : n ≠ 0 := fun hzero => h (by rw [hzero])
    simp only [Option.map_some, Option.some.injEq]
    omega

theorem Run.eq_of_elapse {x : Run} (h : x.timer ≠ 0) : { x with timer := x.timer - 1 + 1 } = x := by
  rw [Nat.sub_add_cancel (Nat.one_le_iff_ne_zero.mpr h)]

theorem AwardRecord.eq_of_elapse {a : AwardRecord} (h : a.timer ≠ 0) : { a with timer := a.timer - 1 + 1 } = a := by
  rw [Nat.sub_add_cancel (Nat.one_le_iff_ne_zero.mpr h)]

/-- While no timer of a port is due, each of them stands 1 higher than after the microsecond. -/
theorem Port.elapse_one {P : Port} (h : P.timerDue = false) :
    (P.elapse 1).accrualTimer + 1 = P.accrualTimer
      ∧ P.run = (P.elapse 1).run.map (fun x => { x with timer := x.timer + 1 })
      ∧ P.awards = (P.elapse 1).awards.map (fun a => { a with timer := a.timer + 1 })
      ∧ P.holdDownTimer = (P.elapse 1).holdDownTimer.map (· + 1) := by
  simp only [Port.timerDue, Bool.or_eq_false_iff, beq_eq_false_iff_ne] at h
  obtain ⟨⟨⟨haccrual, hrun⟩, hawards⟩, hhold⟩ := h
  refine ⟨Nat.sub_add_cancel (Nat.one_le_iff_ne_zero.mpr haccrual), ?_, ?_, map_add_map_sub hhold⟩
  · cases hx : P.run with
    | none => simp [Port.elapse, hx]
    | some x =>
      rw [hx] at hrun
      have hdue : x.timer ≠ 0 := by simpa using hrun
      simp only [Port.elapse, hx, Option.map_some, Run.eq_of_elapse hdue]
  · simp only [Port.elapse, List.map_map]
    refine (List.map_id P.awards).symm.trans (List.map_congr_left fun a ha => ?_)
    have hdue : a.timer ≠ 0 := by simpa using List.any_eq_false.mp hawards a ha
    exact (AwardRecord.eq_of_elapse hdue).symm

/-- Settles O2: with no expiry due no timer stands at 0. -/
theorem idleStepLetsOneMicrosecondPass : Obligations.IdleStepLetsOneMicrosecondPass := by
  intro s hpending hpin hdue
  obtain ⟨hpulse, hgap⟩ := s.timerDue_links hdue
  refine ⟨s.elapse 1, ?_, rfl, fun p => ⟨?_, ?_⟩, map_add_map_sub hpulse, fun h => ?_, fun a ha => ⟨?_, fun hpart => ?_⟩⟩
  · simp only [step, hpending, State.tick, hpin, hdue, Bool.not_false, Bool.and_self, if_true]
  · rw [State.port_elapse]; rfl
  · rw [State.port_elapse]
    exact Port.elapse_one (s.timerDue_port hdue p)
  · simp [State.elapse, h]
  · simp [State.elapse, ha]
  · have hleft := hgap a ha
    simp only [Assembly.gapDue, hpart, Bool.not_false, Bool.and_true, beq_eq_false_iff_ne] at hleft
    exact Nat.pos_of_ne_zero hleft

/-! ## The fault record -/

/-- What a report leaves and whether it is a cause of the FAULT notice, by the ignored faults and the rows of Table 9.3. -/
theorem FaultUnit.report_spec (u : FaultUnit) (f : FaultReport) :
    let minor := f.kind.severity = .minor
    let ignored := u.ignoreMinor = true ∧ minor
    let heldMajor := ∃ h, u.held = some h ∧ h.kind.severity = .major
    let heldMinor := ∃ h, u.held = some h ∧ h.kind.severity = .minor
    let captured := ¬ ignored ∧ (u.held = none ∨ (heldMinor ∧ ¬ minor))
    let v := (u.report f).1
    v.kindsSeen = u.kindsSeen ||| f.kind.mask ∧ v.ignoreMinor = u.ignoreMinor
      ∧ (captured → v.held = some f) ∧ (¬ captured → v.held = u.held)
      ∧ (v.moreMinor = true ↔ u.moreMinor = true ∨ (¬ ignored ∧ u.held ≠ none ∧ (minor ∨ heldMinor)))
      ∧ (v.moreMajor = true ↔ u.moreMajor = true ∨ (heldMajor ∧ ¬ minor))
      ∧ ((u.report f).2 = true ↔ captured) := by
  by_cases hignored : u.ignoreMinor = true ∧ f.kind.severity = .minor
  · obtain ⟨hmode, hminor⟩ := hignored
    simp [FaultUnit.report, hmode, hminor]
  · have htest : (u.ignoreMinor && f.kind.severity == .minor) = false := by simpa using hignored
    cases hheld : u.held with
    | none => simp [FaultUnit.report, htest, hheld, hignored]
    | some h =>
      cases hh : h.kind.severity <;> cases hf : f.kind.severity <;>
        simp_all [FaultUnit.report]

/-- Settles O17: the rows of Table 9.3, and a cause of the FAULT notice where the fault is captured. -/
theorem reportedFaultActsOnTheRecord : Obligations.ReportedFaultActsOnTheRecord := by
  intro s f
  obtain ⟨hseen, hmode, hcaptured, hkept, hminor, hmajor, hcause⟩ := s.faults.report_spec f
  refine ⟨(s.faults.report f).1, hseen, hmode, hcaptured, hkept, hminor, hmajor, fun h => ?_, fun h => ?_⟩
  · rw [State.reportFault_eq, if_pos (hcause.mpr h)]
  · rw [State.reportFault_eq, if_neg fun hc => h (hcause.mp hc)]

/-! ## Notices -/

theorem NoticeKind.getLsbD_mask (k j : NoticeKind) : k.mask.getLsbD j.index = decide (j = k) := by
  cases k <;> cases j <;> rfl

theorem NoticeKind.and_mask_ne_zero (x : NoticeSet) (k : NoticeKind) : (x &&& k.mask != 0) = x.getLsbD k.index := by
  have hmask : k.mask = BitVec.twoPow 6 k.index := (BitVec.twoPow_eq 6 k.index).symm
  have hne : BitVec.twoPow 6 k.index ≠ 0#6 := by cases k <;> decide
  rw [hmask, BitVec.and_twoPow]
  split <;> simp_all

theorem MgUnit.noticeWaiting_iff (u : MgUnit) : u.noticeWaiting = true ↔ MgOut.notice none ∈ u.outq := by
  simp [MgUnit.noticeWaiting]

theorem MgUnit.afterCall_eq (u : MgUnit) :
    u.afterCall = { u with outq := if MgOut.notice none ∈ u.outq then u.outq else u.outq ++ [.notice none] } := by
  unfold MgUnit.afterCall
  simp only [MgUnit.noticeWaiting_iff]
  split <;> rfl

/-- A cause in closed form: a NOTICE joins where the kind is enabled and none is waiting. -/
theorem MgUnit.afterCause_eq (u : MgUnit) (k : NoticeKind) :
    u.afterCause k = { u with
      notices := { u.notices with pending := u.notices.pending ||| k.mask }
      outq := if u.enables.getLsbD k.index = true ∧ MgOut.notice none ∉ u.outq then u.outq ++ [.notice none]
        else u.outq } := by
  unfold MgUnit.afterCause
  rw [NoticeKind.and_mask_ne_zero]
  dsimp only
  cases henabled : u.enables.getLsbD k.index with
  | false => simp
  | true =>
    rw [MgUnit.afterCall_eq]
    by_cases hwaiting : MgOut.notice none ∈ u.outq
    · simp [hwaiting]
    · simp [hwaiting]

/-- Settles O18: the kind joins the pending set, and the call is that of R143. -/
theorem noticeCauseCallsForANotice : Obligations.NoticeCauseCallsForANotice := by
  intro s k called
  have hcause : s.noticeCause k = { s with mg := s.mg.afterCause k } := s.noticeCause_eq k
  rw [MgUnit.afterCause_eq] at hcause
  refine ⟨_, hcause, fun h => if_pos h, fun h => if_neg h, fun j => ?_⟩
  rw [hcause]
  dsimp only
  rw [BitVec.getLsbD_or, NoticeKind.getLsbD_mask, Bool.or_eq_true, decide_eq_true_iff, or_comm]

/-! ## The end of an event -/

section
variable {content : NoticeRecord}

/-- With no enabled kind pending the waiting NOTICE frames leave unsent (R143). -/
theorem beginFrames_of_none_pending {q : List MgOut} (h : ∀ n, MgOut.notice (some n) ∉ q) :
    beginFrames false content q
      = (q.dropWhile (fun f => f == .notice none), !(q.dropWhile (fun f => f == .notice none)).isEmpty) := by
  induction q with
  | nil => rfl
  | cons f rest ih =>
    match f with
    | .reply r => simp [beginFrames]
    | .notice (some n) => exact absurd List.mem_cons_self (h n)
    | .notice none =>
      have hrest := ih fun n hn => h n (List.mem_cons_of_mem _ hn)
      simpa [beginFrames] using hrest

end

section
variable {s : State}

theorem State.beginManagement_of_busy (h : s.mg.sending = true ∨ s.mg.resetStage = .replySent) :
    s.beginManagement = s := by
  unfold State.beginManagement
  rw [if_pos (by simpa using h)]

theorem State.beginManagement_of_idle (hidle : s.mg.sending = false) (hstage : s.mg.resetStage ≠ .replySent) :
    s.beginManagement = { s with mg := { s.mg with
      outq := (beginFrames s.attnLevel s.mg.notices s.mg.outq).1,
      sending := (beginFrames s.attnLevel s.mg.notices s.mg.outq).2 } } := by
  unfold State.beginManagement
  rw [if_neg (by simp [hidle, hstage])]

/-- The beginning of frames changes only the queue of the management link and whether a frame is in transmission. -/
theorem State.beginManagement_eq (s : State) : s.beginManagement = { s with mg := { s.mg with
    outq := s.beginManagement.mg.outq, sending := s.beginManagement.mg.sending } } := by
  unfold State.beginManagement
  split <;> rfl

theorem State.attnLevel_eq (s : State) : s.attnLevel = decide (s.mg.notices.pending &&& s.mg.enables ≠ 0) := by
  rw [Bool.eq_iff_iff]
  simp [State.attnLevel]

theorem SwitchUnit.alertLow_eq (u : SwitchUnit) : u.alertLow = decide (u.link = .resync ∨ u.checkPulse ≠ none) := by
  cases hpulse : u.checkPulse <;> simp [SwitchUnit.alertLow, hpulse, beq_eq_decide]

theorem State.settle_eq (hpin : s.pins.rstN = true) :
    s.settle = { s with
      pins := { rstN := true, attn := decide (s.mg.notices.pending &&& s.mg.enables ≠ 0),
                alertLow := decide (s.sw.link = .resync ∨ s.sw.checkPulse ≠ none), pause := s.pool.pause }
      sw := { s.sw with sending := !s.sw.outq.isEmpty }
      mg := { s.mg with outq := s.beginManagement.mg.outq, sending := s.beginManagement.mg.sending } } := by
  have hattn := s.attnLevel_eq
  have halert := s.sw.alertLow_eq
  unfold State.settle
  rw [s.beginManagement_eq]
  simp only [State.beginSwitch, State.drivePins, State.pinLevels, hpin, if_true]
  rw [← hattn, ← halert]
  rfl

end

/-- Settles O19: the switch link and the pins by their definitions, the management link by the frame that begins. -/
theorem endOfEventBeginsTheNextFrames : Obligations.EndOfEventBeginsTheNextFrames := by
  intro s hpin t
  have ht : t = s.settle := rfl
  have hmg : t.mg = s.beginManagement.mg := by simp [ht, State.settle]
  refine ⟨?_, fun hbusy => ?_, fun hidle hstage => ?_⟩
  · rw [hmg, ht]
    exact State.settle_eq hpin
  · rw [hmg, State.beginManagement_of_busy hbusy]
    exact ⟨rfl, rfl⟩
  · have hbegin := State.beginManagement_of_idle hidle hstage
    rw [hmg, hbegin, s.attnLevel_eq]
    refine ⟨fun hpending => ?_, fun hpending hcontent => ?_⟩
    · rw [decide_eq_true hpending]
      refine ⟨fun hq => ?_, fun r rest hq => ?_, fun rest hq => ?_⟩
      · rw [hq]; exact ⟨rfl, rfl⟩
      · rw [hq]; exact ⟨rfl, rfl⟩
      · rw [hq]; exact ⟨rfl, rfl⟩
    · rw [decide_eq_false (not_not.mpr hpending), beginFrames_of_none_pending hcontent]
      exact ⟨rfl, rfl⟩

end Sys2Proof.Machine
end

section
/-! PROOFS. The award scheduler: the lookup of the source map (O32), the accrual of a row (O23), the scan and the pass (O24),
an award (O25) and the selection opportunity (O26). -/

namespace Sys2Proof.Machine

/-! ## The lookup -/

theorem entryNumbers_split (e : EntryNo) :
    ∃ before behind, entryNumbers = before ++ e :: behind ∧ ∀ d ∈ before, d < e := by
  have split : ∀ e : EntryNo, entryNumbers = entryNumbers.take e.val ++ e :: entryNumbers.drop (e.val + 1)
      ∧ ∀ d ∈ entryNumbers.take e.val, d < e := by decide
  exact ⟨_, _, split e⟩

/-- An entry covers an address where it is valid and agrees in every compared bit (R40). -/
theorem SourceEntry.covers_iff (x : SourceEntry) (a : Address) :
    x.covers a = true ↔ x.valid = true
      ∧ ∀ i, i < 24 → x.matchMask.getLsbD i = false → a.getLsbD i = x.matchBase.getLsbD i := by
  rw [SourceEntry.covers, Bool.and_eq_true, beq_iff_eq]
  refine and_congr_right fun _ => ⟨fun h i hi hmask => ?_, fun h => ?_⟩
  · have hbit := congrArg (fun v => BitVec.getLsbD v i) h
    simp only [BitVec.getLsbD_and, BitVec.getLsbD_xor, BitVec.getLsbD_not, hmask, decide_eq_true hi, Bool.not_false,
      Bool.and_true] at hbit
    exact bne_eq_false_iff_eq.mp (hbit.trans BitVec.getLsbD_zero)
  · refine BitVec.eq_of_getLsbD_eq fun i hi => ?_
    rw [BitVec.getLsbD_and, BitVec.getLsbD_xor, BitVec.getLsbD_not]
    cases hmask : x.matchMask.getLsbD i with
    | true => simp
    | false => rw [h i hi hmask]; simp

/-- Settles O32: the search takes the first entry that covers the address. -/
theorem lookupFindsTheFirstMatch : Obligations.LookupFindsTheFirstMatch := by
  intro s a agrees
  have hcovers : ∀ e, (s.source e).covers a = true ↔ agrees e := fun e => SourceEntry.covers_iff _ _
  refine ⟨fun e he hbelow => ?_, fun hnone => ?_, fun e hvalid hmask => ⟨hvalid, fun i hi hbit => ?_⟩,
    fun e hvalid hmask => ⟨fun h => ?_, fun h => ⟨hvalid, fun i _ _ => by rw [h]⟩⟩⟩
  · obtain ⟨before, behind, heq, hlt⟩ := entryNumbers_split e
    exact List.find?_eq_some_iff_append.mpr ⟨(hcovers e).mpr he, before, behind, heq,
      fun d hd => by rw [Bool.not_eq_true', Bool.eq_false_iff, Ne, hcovers]; exact hbelow d (hlt d hd)⟩
  · exact List.find?_eq_none.mpr fun e _ => fun h => hnone e ((hcovers e).mp h)
  · rw [hmask] at hbit
    have hones : BitVec.getLsbD (0xFFFFFF : Address) i = true := by
      show (BitVec.allOnes 24).getLsbD i = true
      rw [BitVec.getLsbD_allOnes, decide_eq_true hi]
    rw [hones] at hbit
    exact absurd hbit (by decide)
  · exact BitVec.eq_of_getLsbD_eq fun i hi => h.2 i hi (by rw [hmask]; exact BitVec.getLsbD_zero)

/-! ## Accrual -/

theorem Row.accrue_of_invalid {r : Row} (h : r.contract.valid = false) (n : Nat) : r.accrue n = r := by
  simp [Row.accrue, h]

theorem Row.accrue_of_valid {r : Row} (h : r.contract.valid = true) (n : Nat) :
    r.accrue n = { r with
      fb := min (r.fb + ((n * r.e + r.rf) / 4096 : Nat)) (burstBytes r.contract.floorBurst)
      rf := (n * r.e + r.rf) % 4096
      cb := min (r.cb + ((n * r.ce + r.rc) / 4096 : Nat)) (burstBytes r.contract.ceilingBurst)
      rc := (n * r.ce + r.rc) % 4096 } := by
  simp [Row.accrue, h]

/-- Nothing accrues from nothing: a row within its bursts, with whole remainders, stands. -/
theorem Row.accrue_zero {r : Row} (h : r.Bounded) : r.accrue 0 = r := by
  obtain ⟨-, hfb, -, hcb, hrf, hrc, -⟩ := h
  cases hvalid : r.contract.valid with
  | false => exact Row.accrue_of_invalid hvalid 0
  | true =>
    rw [Row.accrue_of_valid hvalid]
    simp only [Nat.zero_mul, Nat.zero_add, Nat.div_eq_of_lt (Nat.lt_succ_of_le hrf),
      Nat.div_eq_of_lt (Nat.lt_succ_of_le hrc), Nat.mod_eq_of_lt (Nat.lt_succ_of_le hrf),
      Nat.mod_eq_of_lt (Nat.lt_succ_of_le hrc), Int.natCast_zero, Int.add_zero, min_eq_left hfb, min_eq_left hcb]

theorem burstBytes_eq (n : Nat) : burstBytes n = 1024 * n := by
  rw [burstBytes, Nat.mul_comm]; push_cast; rfl

/-- Settles O23: division by 4096 gives the whole bytes, and its remainder is carried. -/
theorem accrualIsExact : Obligations.AccrualIsExact := by
  intro P c r t product
  have ht : t = r.accrue product := Port.row_accrue P c
  refine ⟨fun h => ht.trans (Row.accrue_of_invalid h _), fun h => ?_, fun hdown hbounded => ?_, rfl⟩
  · rw [Row.accrue_of_valid h] at ht
    refine ⟨(product * r.e + r.rf) / 4096, (product * r.ce + r.rc) / 4096, ?_⟩
    rw [ht, ← burstBytes_eq, ← burstBytes_eq]
    exact ⟨Nat.div_add_mod _ _, Nat.mod_lt _ (by decide), Nat.div_add_mod _ _, Nat.mod_lt _ (by decide), rfl, rfl, rfl⟩
  · have hzero : product = 0 := by
      show P.settings.baseRate * P.loadedPeriod * gradeValue P.grade = 0
      rw [hdown]; exact Nat.mul_zero _
    rw [ht, hzero]
    exact Row.accrue_zero hbounded

/-! ## The scan -/

theorem Row.meets_iff (l : Lane) (k : Charge) (r : Row) :
    r.meets l k = true ↔ r.contract.valid = true ∧ r.contract.lane = l ∧ r.queue ≠ [] ∧ 0 < r.credit k := by
  simp [Row.meets, and_assoc]

theorem ofNat_val_lt {n : Nat} (hn : n < 16) {d : Fin 16} (h : d < Fin.ofNat 16 n) : d.val < n := by
  have hd : d.val < n % 16 := h
  omega

/-- The scan takes the first class in its order that meets the condition (R65). -/
theorem Port.scan_first {P : Port} {l : Lane} {k : Charge} {n : Nat} (hn : n < 16)
    (hmeets : (P.row (P.pointers.get l k + 1 + Fin.ofNat 16 n)).meets l k = true)
    (hbefore : ∀ m < n, (P.row (P.pointers.get l k + 1 + Fin.ofNat 16 m)).meets l k = false) :
    P.scan l k = some (P.pointers.get l k + 1 + Fin.ofNat 16 n) := by
  have hfind : ascending.find? (fun i => (P.row (P.pointers.get l k + 1 + i)).meets l k) = some (Fin.ofNat 16 n) := by
    refine find?_ascending hmeets fun d hd => ?_
    have hd' := hbefore d.val (ofNat_val_lt hn hd)
    rw [show Fin.ofNat 16 d.val = d from Fin.ext (Nat.mod_eq_of_lt d.isLt)] at hd'
    rw [hd']; decide
  rw [Port.scan, scanOrder, List.find?_map]
  exact congrArg (Option.map _) hfind

theorem Run.continuedBy_iff (x : Run) (r : Row) :
    x.continuedBy r = true ↔ r.contract.valid = true
      ∧ (∃ b rest, r.queue = b :: rest ∧ b.source = x.source ∧ b.key = x.key) ∧ (0 < r.fb ∨ 0 < r.cb) := by
  cases hq : r.queue with
  | nil => simp [Run.continuedBy, hq]
  | cons b rest => simp [Run.continuedBy, hq, and_assoc]

theorem Port.pass_of_prime {P : Port} {c : ClassNo} (h : P.scan .prime .floor = some c) :
    P.pass = (P, some { cls := c, charge := .floor, via := .scan .prime }) := by
  have hstep : P.scanStep .prime .floor = some { cls := c, charge := .floor, via := .scan .prime } := by
    rw [Port.scanStep, h]; rfl
  rw [Port.pass, hstep]

theorem Port.pass_of_run {P : Port} (h : P.scan .prime .floor = none) {x : Selection} (hx : P.runStep = some x) :
    P.pass = (P, some x) := by
  have hstep : P.scanStep .prime .floor = none := by rw [Port.scanStep, h]; rfl
  rw [Port.pass, hstep, hx]

theorem Port.pass_of_lanes {P : Port} (h : P.scan .prime .floor = none) (hx : P.runStep = none) :
    P.pass = ({ P with run := none }, P.laneSteps) := by
  have hstep : P.scanStep .prime .floor = none := by rw [Port.scanStep, h]; rfl
  rw [Port.pass, hstep, hx]

theorem Port.laneSteps_eq (P : Port) :
    P.laneSteps = ([P.scanStep .main .floor, P.scanStep .backfill .floor, P.scanStep .prime .ceiling,
      P.scanStep .main .ceiling, P.scanStep .backfill .ceiling].findSome? id) := by
  simp only [Port.laneSteps, List.findSome?_cons, List.findSome?_nil, id]
  cases P.scanStep .main .floor <;> cases P.scanStep .backfill .floor <;> cases P.scanStep .prime .ceiling <;>
    cases P.scanStep .main .ceiling <;> cases P.scanStep .backfill .ceiling <;> rfl

/-- Settles O24: the scan is a search in cyclic order, and the pass is its three branches. -/
theorem passTakesTheStepsInOrder : Obligations.PassTakesTheStepsInOrder := by
  refine ⟨fun P l k => ?_, fun P => ?_⟩
  · intro p meets
    have hmeets : ∀ c, (P.row c).meets l k = true ↔ meets c := fun c => by rw [Row.meets_iff]; cases k <;> rfl
    refine ⟨fun n hn h hbefore => ?_, fun h => ?_⟩
    · exact Port.scan_first hn ((hmeets _).mpr h)
        fun m hm => Bool.eq_false_of_not_eq_true fun hc => hbefore m hm ((hmeets _).mp hc)
    · exact List.find?_eq_none.mpr fun c _ hc => h c ((hmeets c).mp hc)
  · refine ⟨fun c hc => Port.pass_of_prime hc, fun hprime => ⟨fun x hx hyields => ?_, fun hyields => ?_⟩⟩
    · refine Port.pass_of_run hprime ?_
      rw [Port.runStep, hx]
      exact if_pos ((Run.continuedBy_iff _ _).mpr hyields)
    · have hstep : P.runStep = none := by
        unfold Port.runStep
        split
        · rfl
        · rename_i x hx
          exact if_neg fun hc => hyields x hx ((Run.continuedBy_iff _ _).mp hc)
      rw [Port.pass_of_lanes hprime hstep, Port.laneSteps_eq]
      rfl

/-! ## An award -/

theorem Pointers.get_set (ps : Pointers) (l m : Lane) (k j : Charge) (c : ClassNo) :
    (ps.set l k c).get m j = if l = m ∧ j = k then c else ps.get m j := by
  cases l <;> cases k <;> cases m <;> cases j <;> simp [Pointers.get, Pointers.set]

theorem Selection.get_movePointers (x : Selection) (ps : Pointers) (l : Lane) (k : Charge) :
    (x.movePointers ps).get l k = if x.via = .scan l ∧ k = x.charge then x.cls else ps.get l k := by
  unfold Selection.movePointers
  split
  · rename_i m hm
    simp [Pointers.get_set, hm]
  · rename_i hm
    simp [hm]

/-- A run may open at an award of steps 3 and 4 only (R76). -/
theorem Selection.opensRun_iff (x : Selection) :
    x.opensRun = true ↔ x.via ≠ .run ∧ ¬ (x.via = .scan .prime ∧ x.charge = .floor) := by
  unfold Selection.opensRun
  cases x.via with
  | run => simp
  | scan l => cases l <;> cases x.charge <;> simp

theorem Selection.runAfter_eq (x : Selection) (r : Row) (b : BidRecord) (run : Option Run) :
    x.runAfter r b run = if run = none ∧ 0 < r.contract.runHold ∧ x.via ≠ .run ∧ ¬ (x.via = .scan .prime ∧ x.charge = .floor)
      then some { cls := b.cls, source := b.source, key := b.key, timer := r.contract.runHold } else run := by
  unfold Selection.runAfter
  refine if_congr ?_ rfl rfl
  rw [Bool.and_eq_true, Bool.and_eq_true, Selection.opensRun_iff, Option.isNone_iff_eq_none, decide_eq_true_iff]
  tauto

theorem CounterPair.count_event (x : CounterPair) (ev : CounterEvent) (c : Option ClassNo) (n : Nat) :
    (x.count ev c n).event = x.event := by
  unfold CounterPair.count; split <;> rfl

theorem CounterPair.count_of_ne {x : CounterPair} {ev : CounterEvent} (h : x.event ≠ ev) (c : Option ClassNo) (n : Nat) :
    x.count ev c n = x := if_neg h

/-- What an award adds to the selected event, if it counts there (R75). -/
def Selection.counted (x : Selection) (b : BidRecord) : CounterEvent → Option Nat
  | .awards => some 1
  | .awardBytes => some b.length
  | .floorAwards => if x.charge = .floor then some 1 else none
  | .ceilingAwards => if x.charge = .ceiling then some 1 else none
  | .runAwards => if x.via = .run then some 1 else none
  | .arrivals | .declines | .lapses => none

/-- Of the counter events of an award, the pair counts the one selected. -/
theorem CounterPair.afterAward_eq (y : CounterPair) (x : Selection) (b : BidRecord) :
    y.afterAward x b = match x.counted b y.event with
      | some n => y.count y.event (some b.cls) n
      | none => y := by
  unfold CounterPair.afterAward Selection.counted
  cases hev : y.event <;> cases hcharge : x.charge <;> by_cases hvia : x.via = .run <;>
    simp [CounterPair.count, hev, hvia]

section
variable {s : State} {p : PortNo} {x : Selection} {b : BidRecord} {rest : List BidRecord}

theorem State.port_award (h : ((s.port p).row x.cls).queue = b :: rest) :
    (s.award p x).port p = (s.port p).award x b rest s.timeBase := by
  rw [State.award_eq h, State.port_congr (State.tellAward_ports _ p x b) p, State.port_setPort_same]

theorem State.award_of_other (h : ((s.port p).row x.cls).queue = b :: rest) (hmode : (s.port p).mode ≠ .rehearsal) :
    s.award p x = { s with ports := (s.award p x).ports, sw := { s.sw with outq := s.sw.outq ++ [.award p b.tag] } } := by
  rw [State.award_eq h, State.tellAward_of_other]
  · rfl
  · rw [State.port_setPort_same, Port.award_eq]; exact hmode

/-- An award in REHEARSAL writes an entry and reserves a second place; the first entry is a cause of the notice (R162). -/
theorem State.award_of_rehearsal (h : ((s.port p).row x.cls).queue = b :: rest) (hmode : (s.port p).mode = .rehearsal) :
    let logged : State := { s with
      ports := (s.award p x).ports
      log := { entries := s.log.entries ++ [logEntry .award p b x.charge s.timeBase], reserved := s.log.reserved + 1 } }
    s.award p x = if s.log.entries = [] then logged.noticeCause .rehearsal else logged := by
  intro logged
  have hports : logged.ports = (s.setPort p ((s.port p).award x b rest s.timeBase)).ports := by
    show (s.award p x).ports = _
    rw [State.award_eq h, State.tellAward_ports]
  have hlogged : logged = { s.setPort p ((s.port p).award x b rest s.timeBase) with log := logged.log } := by
    show _ = { s with ports := _, log := _ }
    rw [← hports]
  rw [State.award_eq h, State.tellAward_of_rehearsal]
  · rw [hlogged, State.noticeCause_eq]
    unfold State.writeLog
    dsimp only
    simp only [List.isEmpty_iff, State.setPort_log]
    split
    · rw [State.noticeCause_eq]; rfl
    · rfl
  · rw [State.port_setPort_same, Port.award_eq]; exact hmode

end

/-- Settles O25: the award of the port field by field, and how it is told. -/
theorem awardMovesTheHeadRecord : Obligations.AwardMovesTheHeadRecord := by
  intro s p x b rest hqueue P r t entry logged
  have hport : t.port p = P.award x b rest s.timeBase := State.port_award hqueue
  have hfields := Port.award_eq P x b rest s.timeBase
  refine ⟨fun hmode => State.award_of_other hqueue hmode, fun hmode hempty => ?_, fun hmode hentries => ?_,
    fun q hq => State.award_port_ne s x hq, fun c hc => ?_, ?_, ?_, fun l k => ?_, ?_, ?_, ?_⟩
  · exact (State.award_of_rehearsal hqueue hmode).trans (if_pos hempty)
  · exact (State.award_of_rehearsal hqueue hmode).trans (if_neg hentries)
  · rw [hport, Port.row_award, if_neg hc]
  · rw [hport, Port.row_award, if_pos rfl]
    cases x.charge <;> rfl
  · rw [hport, hfields]; rfl
  · rw [hport, hfields]; exact x.get_movePointers P.pointers l k
  · rw [hport, hfields]; exact x.runAfter_eq r b P.run
  · rw [hport, hfields]; exact P.counters.afterAward_eq x b
  · rw [hport, hfields]; rfl

/-! ## The selection opportunity -/

/-- Passes beyond those that the window needs change nothing (R64). -/
theorem ladderPasses_succ (n : Nat) (p : PortNo) (s : State)
    (hn : (s.port p).settings.window ≤ (s.port p).awards.length + n) :
    ladderPasses (n + 1) p s = ladderPasses n p s := by
  induction n generalizing s with
  | zero =>
    have hmay : s.mayAward p = false := Port.mayAwardIf_of_window hn
    rw [ladderPasses, ladderPasses, hmay]; rfl
  | succ n ih =>
    rw [ladderPasses, ladderPasses]
    split
    · split
      · rename_i P x hx
        obtain ⟨hqueue, hawards, hsettings⟩ := Port.pass_queue hx
        obtain ⟨hlength, hsame⟩ := State.award_length (s.setPort p P) p x (by rw [State.port_setPort_same]; exact hqueue)
        refine ih _ ?_
        rw [hlength, hsame, State.port_setPort_same, hawards, hsettings]
        omega
      · rfl
    · rfl

/-- A pass that yields a bid makes its award, and the opportunity goes on (R64). -/
theorem State.ladder_of_award {s : State} {p : PortNo} {P : Port} {x : Selection} (hmay : s.mayAward p = true)
    (hpass : (s.port p).pass = (P, some x)) : s.ladder p = ((s.setPort p P).award p x).ladder p := by
  obtain ⟨hqueue, hawards, hsettings⟩ := Port.pass_queue hpass
  obtain ⟨hlength, hsame⟩ := State.award_length (s.setPort p P) p x (by rw [State.port_setPort_same]; exact hqueue)
  rw [State.port_setPort_same, hawards] at hlength
  rw [State.port_setPort_same, hsettings] at hsame
  rw [State.ladder, State.ladder, ladderPasses, hmay, hpass, hsame]
  exact (ladderPasses_succ _ p _ (by rw [hsame, hlength]; omega)).symm

theorem State.ladder_of_none {s : State} {p : PortNo} {P : Port} (hmay : s.mayAward p = true)
    (hpass : (s.port p).pass = (P, none)) : s.ladder p = s.setPort p P := by
  rw [State.ladder, ladderPasses, hmay, hpass]
  rfl

theorem State.awards_closeRun (s : State) (p : PortNo) :
    ((s.closeRun p).port p).awards = (s.port p).awards ∧ ((s.closeRun p).port p).settings = (s.port p).settings := by
  rw [State.closeRun, State.port_mapPort_same]
  exact ⟨rfl, rfl⟩

/-- Awards add to the tail of the award list and fill no more than the window (R62, R72). -/
theorem State.ladder_awards (s : State) (p : PortNo) :
    (s.port p).awards <+: ((s.ladder p).port p).awards
      ∧ ((s.port p).awards.length ≤ (s.port p).settings.window →
          ((s.ladder p).port p).awards.length ≤ (s.port p).settings.window) := by
  have hkept := State.ladder_keeps (p := p) (s := s)
    (I := fun t => (s.port p).awards <+: (t.port p).awards ∧ (t.port p).settings = (s.port p).settings
      ∧ ((s.port p).awards.length ≤ (s.port p).settings.window →
          (t.port p).awards.length ≤ (s.port p).settings.window))
    (fun t ⟨hprefix, hsettings, hwindow⟩ => ?_) (fun t x b rest ⟨hprefix, hsettings, _⟩ haward => ?_)
    ⟨List.prefix_refl _, rfl, id⟩
  · exact ⟨hkept.1, hkept.2.2⟩
  · obtain ⟨hawards, hsame⟩ := t.awards_closeRun p
    rw [hawards, hsame]
    exact ⟨hprefix, hsettings, hwindow⟩
  · have hroom : (t.port p).awards.length < (t.port p).settings.window := by
      have hmay := haward.may
      simp only [State.mayAward, Bool.and_eq_true, decide_eq_true_eq] at hmay
      exact hmay.1.2
    rw [State.port_award haward.queue, Port.award_eq]
    dsimp only
    refine ⟨hprefix.trans (List.prefix_append _ _), hsettings, fun _ => ?_⟩
    rw [List.length_append, List.length_singleton, ← hsettings]
    exact hroom

/-- Settles O26: the branches of a pass, and what the passes keep. -/
theorem ladderEndsWithNothingEligible : Obligations.LadderEndsWithNothingEligible := by
  intro s p t
  obtain ⟨hprefix, hwindow⟩ := s.ladder_awards p
  refine ⟨fun P x hmay hpass => State.ladder_of_award hmay hpass, fun P hmay hpass => State.ladder_of_none hmay hpass,
    fun hmay => ?_, fun hmay => State.ladder_of_not_mayAward hmay, hprefix, fun hroom => hwindow (Nat.le_of_lt hroom),
    fun q hq => State.ladder_port_ne s hq, ?_, ?_, ?_, ?_⟩
  · exact (Port.quiet_iff _).mp (ladderPasses_ends _ p s (by omega) hmay)
  · exact State.ladder_pool s p
  · exact State.ladder_sources s p
  · exact State.ladder_groups s p
  · exact State.ladder_faults s p

end Sys2Proof.Machine
end

section
/-! PROOFS. The frames of the two links are read back, and each failing test of R120 and R138 gives its outcome (O5, O6). -/

namespace Sys2Proof.Wire

open Sys2Proof.Machine

/-! ## Fields put together -/

/-- The upper and the lower field of a word put together from two. -/
theorem extract_append_left {a b : Nat} (x : BitVec a) (y : BitVec b) : (x ++ y).extractLsb' b a = x := by
  apply BitVec.eq_of_getLsbD_eq
  intro i hi
  simp only [BitVec.getLsbD_extractLsb', hi, decide_true, Bool.true_and, BitVec.getLsbD_append,
    if_neg (Nat.not_lt.mpr (Nat.le_add_right b i)), Nat.add_sub_cancel_left]

theorem extract_append_right {a b : Nat} (x : BitVec a) (y : BitVec b) : (x ++ y).extractLsb' 0 b = y := by
  apply BitVec.eq_of_getLsbD_eq
  intro i hi
  simp only [BitVec.getLsbD_extractLsb', hi, decide_true, Bool.true_and, BitVec.getLsbD_append, Nat.zero_add,
    if_true]

theorem extract_extract {w : Nat} (v : BitVec w) (i j a b : Nat) (h : j + b ≤ a) :
    (v.extractLsb' i a).extractLsb' j b = v.extractLsb' (i + j) b := by
  apply BitVec.eq_of_getLsbD_eq
  intro n hn
  simp only [BitVec.getLsbD_extractLsb', hn, decide_true, Bool.true_and, decide_eq_true (show j + n < a by omega),
    Nat.add_assoc]

theorem bytes2_word2 (a b : Byte) : bytes2 (word2 a b) = [a, b] := by
  rw [bytes2, word2, extract_append_left, extract_append_right]

/-- The fields of a word of three parts. -/
theorem extract_three {n : Nat} (x : BitVec n) (y z : Byte) :
    (x ++ y ++ z : BitVec (n + 8 + 8)).extractLsb' 16 n = x ∧ (x ++ y ++ z : BitVec (n + 8 + 8)).extractLsb' 8 8 = y
      ∧ (x ++ y ++ z : BitVec (n + 8 + 8)).extractLsb' 0 8 = z := by
  have hupper := extract_append_left (x ++ y) z
  refine ⟨?_, ?_, extract_append_right _ z⟩
  · have hhigh := extract_extract (x ++ y ++ z) 8 8 (n + 8) n (by omega)
    rw [hupper, extract_append_left] at hhigh
    exact hhigh.symm
  · have hmiddle := extract_extract (x ++ y ++ z) 8 0 (n + 8) 8 (by omega)
    rw [hupper, extract_append_right] at hmiddle
    exact hmiddle.symm

theorem bytes3_word3 (a b c : Byte) : bytes3 (word3 a b c) = [a, b, c] := by
  obtain ⟨ha, hb, hc⟩ := extract_three a b c
  exact congrArg₂ List.cons ha (congrArg₂ List.cons hb (congrArg (fun x => [x]) hc))

theorem portNibble_portOf (b : Byte) : portNibble (portOf b) (lowNibble b) = b := by
  revert b; decide +kernel

/-! ## Bodies of the right length -/

/-- Every body of a BID is the body of one bid. -/
theorem bidOfBytes_of_length {l : List Byte} (h : l.length = 10) : ∃ b, bidOfBytes l = some b ∧ bidBytes b = l := by
  match l, h with
  | [n, l1, l0, a2, a1, a0, t1, t0, k1, k0], _ =>
    refine ⟨_, rfl, ?_⟩
    obtain ⟨hn, hl1, hl0⟩ := extract_three (lowNibble n) l1 l0
    simp only [bidBytes, bytes2_word2, bytes3_word3]
    rw [hn, hl1, hl0, portNibble_portOf]
    rfl

/-- Every body of a FINISH is that of one finish, but for the four unassigned bits. -/
theorem finishOfBytes_of_length {l : List Byte} (h : l.length = 6) : ∃ f, finishOfBytes l = some f := by
  match l, h with
  | [n, t1, t0, m2, m1, m0], _ => exact ⟨_, rfl⟩

theorem finishOfBytes_unassigned (f : FinishBody) (x : BitVec 4) :
    finishOfBytes (portNibble f.port x :: (bytes2 f.tag ++ bytes3 f.moved)) = some f := by
  simp [finishOfBytes, bytes3, bytes2]

theorem gradeCode_of_gradeOfCode {c : BitVec 4} {g : Grade} (h : gradeOfCode c = some g) : gradeCode g = c := by
  revert g
  revert c
  decide +kernel

theorem gradeOfCode_isSome (c : BitVec 4) : (gradeOfCode c).isSome = decide (c ∈ ([0, 1, 2, 4] : List (BitVec 4))) := by
  revert c; decide

/-! ## Frames of the switch -/

/-- A body of the right length is read as a frame of its kind, unless it holds an undefined grade. -/
theorem decodeSwBody_of_length {k : SwKind} {body : List Byte} (hlength : body.length = k.bodyLength)
    (hgrade : k ≠ .grade ∨ ∃ h, body = [h] ∧ h.extractLsb' 0 4 ∈ ([0, 1, 2, 4] : List (BitVec 4))) :
    ∃ f, decodeSwBody k body = some f ∧ (k ≠ .withdraw → k ≠ .finish → f.body = body) := by
  cases k with
  | bid =>
    obtain ⟨b, hread, hbody⟩ := bidOfBytes_of_length hlength
    exact ⟨.bid b, congrArg (Option.map SwIn.bid) hread, fun _ _ => hbody⟩
  | withdraw =>
    match body, hlength with
    | [n, t1, t0], _ => exact ⟨_, rfl, fun h => absurd rfl h⟩
  | finish =>
    obtain ⟨f, hread⟩ := finishOfBytes_of_length hlength
    exact ⟨.finish f, congrArg (Option.map SwIn.finish) hread, fun _ h => absurd rfl h⟩
  | grade =>
    obtain ⟨n, rfl, hcode⟩ := hgrade.resolve_left (not_not.mpr rfl)
    have hdefined := (gradeOfCode_isSome (lowNibble n)).trans (decide_eq_true hcode)
    obtain ⟨g, hg⟩ := Option.isSome_iff_exists.mp hdefined
    refine ⟨.grade (portOf n) g, congrArg (Option.map (SwIn.grade (portOf n))) hg, fun _ _ => ?_⟩
    show [portNibble (portOf n) (gradeCode g)] = [n]
    rw [gradeCode_of_gradeOfCode hg, portNibble_portOf]
  | forget => exact ⟨.forget, by rw [List.eq_nil_of_length_eq_zero hlength]; rfl,
      fun _ _ => (List.eq_nil_of_length_eq_zero hlength).symm⟩
  | sync => exact ⟨.sync, by rw [List.eq_nil_of_length_eq_zero hlength]; rfl,
      fun _ _ => (List.eq_nil_of_length_eq_zero hlength).symm⟩

/-- A GRADE of an undefined code is no frame (test 4 of R120). -/
theorem decodeSwBody_undefined {body : List Byte} (hlength : body.length = 1)
    (h : ∀ n, body = [n] → n.extractLsb' 0 4 ∉ ([0, 1, 2, 4] : List (BitVec 4))) :
    decodeSwBody .grade body = none := by
  obtain ⟨n, rfl⟩ := List.length_eq_one_iff.mp hlength
  have hundefined := (gradeOfCode_isSome (lowNibble n)).trans (decide_eq_false (h n rfl))
  exact congrArg (Option.map (SwIn.grade (portOf n))) (Option.isSome_eq_false_iff.mp hundefined |> Option.isNone_iff_eq_none.mp)

theorem swKindOf_eq_none {b : Byte} (h : b ∉ ([0x21, 0x22, 0x23, 0x24, 0x2E, 0x5A] : List Byte)) : swKindOf b = none := by
  rw [swKindOf, List.find?_eq_none]
  intro k _ hk
  rw [beq_iff_eq] at hk
  subst hk
  cases k <;> exact h (by decide)

section
variable {k : SwKind}

theorem examine_wrongLength {b : Byte} (rest : List Byte) (h : b ≠ BitVec.ofNat 8 k.bodyLength) :
    examine (k.code :: b :: rest) = .lost := by
  simp [examine, h]

theorem examine_short {rest : List Byte} (h : rest.length < k.bodyLength + 1) :
    examine (k.code :: BitVec.ofNat 8 k.bodyLength :: rest) = .incomplete := by
  simp [examine, examineWhole, h]

variable {body : List Byte} (hlength : body.length = k.bodyLength) (rest : List Byte)
include hlength

theorem examine_damaged {c : Byte} (h : c ≠ crc8 (k.code :: BitVec.ofNat 8 k.bodyLength :: body)) :
    examine ((k.code :: BitVec.ofNat 8 k.bodyLength :: body) ++ c :: rest) = .damaged (k.bodyLength + 3) := by
  rw [examine_whole k body rest c hlength, if_pos h]

theorem examine_good {f : SwIn} (h : decodeSwBody k body = some f) :
    examine ((k.code :: BitVec.ofNat 8 k.bodyLength :: body)
      ++ crc8 (k.code :: BitVec.ofNat 8 k.bodyLength :: body) :: rest) = .good f (k.bodyLength + 3) := by
  rw [examine_whole k body rest _ hlength, if_neg (not_not_intro rfl), h]

theorem examine_undefined (h : decodeSwBody k body = none) :
    examine ((k.code :: BitVec.ofNat 8 k.bodyLength :: body)
      ++ crc8 (k.code :: BitVec.ofNat 8 k.bodyLength :: body) :: rest) = .lost := by
  rw [examine_whole k body rest _ hlength, if_neg (not_not_intro rfl), h]

end

end Sys2Proof.Wire

namespace Sys2Proof.Machine

open Sys2Proof.Wire

/-- Settles O6: the five tests of R120 in their order, and the reading of each body. -/
theorem switchFramesReadBack : Obligations.SwitchFramesReadBack := by
  refine ⟨fun f rest => ?_, fun b rest hb => ?_, rfl, fun k => ?_⟩
  · have hgood := examine_good f.body_length rest (decodeSwBody_body f)
    rw [SwIn.bytes_length, SwIn.bytes, List.append_assoc]
    exact hgood
  · rw [examine, swKindOf_eq_none hb]
  · intro n whole
    refine ⟨by simp [examine], fun b rest hb => examine_wrongLength rest hb, fun rest h => examine_short h,
      fun body rest hlength => ⟨fun c hc => examine_damaged hlength rest hc, fun hk hcode => ?_, fun hk => ?_,
        fun p t x hk hbody => ?_, fun f x hk hbody => ?_⟩⟩
    · subst hk
      exact examine_undefined hlength rest (decodeSwBody_undefined hlength hcode)
    · obtain ⟨f, hread, hbody⟩ := decodeSwBody_of_length hlength hk
      exact ⟨f, decodeSwBody_kind hread, hbody, examine_good hlength rest hread⟩
    · subst hk hbody
      refine examine_good hlength rest ?_
      show some (SwIn.withdraw (portOf (portNibble p x)) (word2 (t.extractLsb' 8 8) (t.extractLsb' 0 8))) = _
      rw [portOf_portNibble, word2_bytes2]
    · subst hk hbody
      exact examine_good hlength rest (congrArg (Option.map SwIn.finish) (finishOfBytes_unassigned f x))

end Sys2Proof.Machine
end

section
/-! PROOFS. The request frames of the host are read back, and each failing test of R138 gives its answer (O5). -/

namespace Sys2Proof.Wire

open Sys2Proof.Machine

/-! ## Bodies of the right length, by their shapes -/

section
variable {body : List Byte}

theorem body0_of_length (i : Instr) (h : body.length = 0) : body0 i body = some i ∧ body = [] := by
  match body, h with
  | [], _ => exact ⟨rfl, rfl⟩

theorem body1_of_length (f : Byte → Instr) (h : body.length = 1) : ∃ a, body1 f body = some (f a) ∧ body = [a] := by
  match body, h with
  | [a], _ => exact ⟨a, rfl, rfl⟩

theorem body2_of_length (f : Byte → Byte → Instr) (h : body.length = 2) :
    ∃ a b, body2 f body = some (f a b) ∧ body = [a, b] := by
  match body, h with
  | [a, b], _ => exact ⟨a, b, rfl, rfl⟩

theorem body3_of_length (f : Byte → Byte → Byte → Instr) (h : body.length = 3) :
    ∃ a b c, body3 f body = some (f a b c) ∧ body = [a, b, c] := by
  match body, h with
  | [a, b, c], _ => exact ⟨a, b, c, rfl, rfl⟩

theorem bodyWord_of_length (f : BitVec 16 → Instr) (h : body.length = 2) :
    ∃ v, bodyWord f body = some (f v) ∧ body = bytes2 v := by
  match body, h with
  | [a, b], _ => exact ⟨_, rfl, (bytes2_word2 a b).symm⟩

theorem bodyWords_of_length (f : BitVec 16 → BitVec 16 → Instr) (h : body.length = 4) :
    ∃ v w, bodyWords f body = some (f v w) ∧ body = bytes2 v ++ bytes2 w := by
  match body, h with
  | [a, b, c, d], _ => exact ⟨_, _, rfl, by rw [bytes2_word2, bytes2_word2]; rfl⟩

theorem settingsOfBytes_of_length (h : body.length = 9) :
    ∃ b, settingsOfBytes body = some b ∧ body = settingsBytes b := by
  match body, h with
  | [r1, r0, i, p, w, d1, d0, h1, h0], _ => exact ⟨_, rfl, by simp only [settingsBytes, bytes2_word2]; rfl⟩

theorem sourceOfBytes_of_length (h : body.length = 10) : ∃ b, sourceOfBytes body = some b ∧ body = sourceBytes b := by
  match body, h with
  | [v, b2, b1, b0, m2, m1, m0, c, l, a], _ => exact ⟨_, rfl, by simp only [sourceBytes, bytes3_word3]; rfl⟩

theorem contractOfBytes_of_length (h : body.length = 15) :
    ∃ b, contractOfBytes body = some b ∧ body = contractBytes b := by
  match body, h with
  | [v, l, f1, f0, c1, c0, fb1, fb0, cb1, cb0, pr, q1, q0, h1, h0], _ =>
    exact ⟨_, rfl, by simp only [contractBytes, bytes2_word2]; rfl⟩

/-! ## Every body of the right length is read -/

/-- A body of a kind is read as a request of that kind, whose body it is; a TEST-FINISH has four unassigned bits. -/
def ReadsBack (kind : Byte) (body : List Byte) : Prop :=
  ∃ j body', decodeRequest kind body = some j ∧ requestParts j = some (kind, body') ∧ (kind ≠ 0x61 → body' = body)

theorem readsBack_of {kind : Byte} {j : Instr} (hread : decodeRequest kind body = some j)
    (hparts : requestParts j = some (kind, body)) : ReadsBack kind body := ⟨j, body, hread, hparts, fun _ => rfl⟩

theorem readsBack_of_length {i : Instr} {kind : Byte} {b : List Byte} (hparts : requestParts i = some (kind, b))
    (h : body.length = b.length) : ReadsBack kind body := by
  cases i <;> cases hparts
  case identify => obtain ⟨hread, rfl⟩ := body0_of_length .identify h; exact readsBack_of hread rfl
  case status => obtain ⟨hread, rfl⟩ := body0_of_length .status h; exact readsBack_of hread rfl
  case reset => obtain ⟨hread, rfl⟩ := body0_of_length .reset h; exact readsBack_of hread rfl
  case poolRead => obtain ⟨hread, rfl⟩ := body0_of_length .poolRead h; exact readsBack_of hread rfl
  case faultRead => obtain ⟨hread, rfl⟩ := body0_of_length .faultRead h; exact readsBack_of hread rfl
  case faultClear => obtain ⟨hread, rfl⟩ := body0_of_length .faultClear h; exact readsBack_of hread rfl
  case rehearsalRead => obtain ⟨hread, rfl⟩ := body0_of_length .rehearsalRead h; exact readsBack_of hread rfl
  case noticeEnable => obtain ⟨a, hread, rfl⟩ := body1_of_length .noticeEnable h; exact readsBack_of hread rfl
  case noticeAck => obtain ⟨a, hread, rfl⟩ := body1_of_length .noticeAck h; exact readsBack_of hread rfl
  case portRead => obtain ⟨a, hread, rfl⟩ := body1_of_length .portRead h; exact readsBack_of hread rfl
  case portFlush => obtain ⟨a, hread, rfl⟩ := body1_of_length .portFlush h; exact readsBack_of hread rfl
  case sourceRead => obtain ⟨a, hread, rfl⟩ := body1_of_length .sourceRead h; exact readsBack_of hread rfl
  case faultMode => obtain ⟨a, hread, rfl⟩ := body1_of_length .faultMode h; exact readsBack_of hread rfl
  case portMode => obtain ⟨a, b, hread, rfl⟩ := body2_of_length .portMode h; exact readsBack_of hread rfl
  case lock => obtain ⟨a, b, hread, rfl⟩ := body2_of_length .lock h; exact readsBack_of hread rfl
  case queueRead => obtain ⟨a, b, hread, rfl⟩ := body2_of_length .queueRead h; exact readsBack_of hread rfl
  case counterRead => obtain ⟨a, b, hread, rfl⟩ := body2_of_length .counterRead h; exact readsBack_of hread rfl
  case contractRead => obtain ⟨a, b, c, hread, rfl⟩ := body3_of_length .contractRead h; exact readsBack_of hread rfl
  case counterSelect => obtain ⟨a, b, c, hread, rfl⟩ := body3_of_length .counterSelect h; exact readsBack_of hread rfl
  case lineRate => obtain ⟨v, hread, rfl⟩ := bodyWord_of_length .lineRate h; exact readsBack_of hread rfl
  case commit => obtain ⟨v, hread, rfl⟩ := bodyWord_of_length .commit h; exact readsBack_of hread rfl
  case abortCommit => obtain ⟨v, hread, rfl⟩ := bodyWord_of_length .abortCommit h; exact readsBack_of hread rfl
  case poolSet => obtain ⟨v, w, hread, rfl⟩ := bodyWords_of_length .poolSet h; exact readsBack_of hread rfl
  case portSet =>
    obtain ⟨p, l, rfl⟩ := List.exists_cons_of_length_eq_add_one h
    obtain ⟨b, hread, rfl⟩ := settingsOfBytes_of_length (Nat.succ.inj h)
    exact readsBack_of (congrArg (Option.map (Instr.portSet p)) hread) rfl
  case sourceSet =>
    obtain ⟨e, l, rfl⟩ := List.exists_cons_of_length_eq_add_one h
    obtain ⟨b, hread, rfl⟩ := sourceOfBytes_of_length (Nat.succ.inj h)
    exact readsBack_of (congrArg (Option.map (Instr.sourceSet e)) hread) rfl
  case contractStage =>
    obtain ⟨p, l, rfl⟩ := List.exists_cons_of_length_eq_add_one h
    obtain ⟨c, m, rfl⟩ := List.exists_cons_of_length_eq_add_one (Nat.succ.inj h)
    obtain ⟨b, hread, rfl⟩ := contractOfBytes_of_length (Nat.succ.inj (Nat.succ.inj h))
    exact readsBack_of (congrArg (Option.map (Instr.contractStage p c)) hread) rfl
  case testBid =>
    obtain ⟨b, hread, rfl⟩ := bidOfBytes_of_length h
    exact readsBack_of (congrArg (Option.map Instr.testBid) hread) rfl
  case testFinish =>
    obtain ⟨f, hread⟩ := finishOfBytes_of_length h
    exact ⟨.testFinish f, _, congrArg (Option.map Instr.testFinish) hread, rfl, fun h => absurd rfl h⟩

end

/-! ## The kinds -/

/-- A request of every kind (Table 11.3). -/
def requestSamples : List Instr :=
  let settings : SettingsBody := ⟨0, 0, 0, 0, 0, 0⟩
  let source : SourceBody := ⟨0, 0, 0, 0, 0, 0⟩
  let contract : ContractBody := ⟨0, 0, 0, 0, 0, 0, 0, 0, 0⟩
  let bid : BidBody := { port := 0, codedLength := 0, address := 0, tag := 0, key := 0 }
  let finish : FinishBody := { port := 0, tag := 0, moved := 0 }
  [.identify, .lineRate 0, .status, .noticeEnable 0, .noticeAck 0, .reset, .portSet 0 settings, .portRead 0, .portMode 0 0,
    .portFlush 0, .sourceSet 0 source, .sourceRead 0, .contractStage 0 0 contract, .contractRead 0 0 0, .commit 0,
    .abortCommit 0, .lock 0 0, .queueRead 0 0, .poolSet 0 0, .poolRead, .faultRead, .faultClear, .faultMode 0,
    .counterSelect 0 0 0, .counterRead 0 0, .testBid bid, .testFinish finish, .rehearsalRead]

/-- A kind with a body length is the kind of a request. -/
theorem requestLength_eq_none {kind : Byte} (h : ∀ i b, requestParts i ≠ some (kind, b)) : requestLength kind = none := by
  have hsample : ∀ k : Byte, requestLength k = none ∨ k ∈ requestSamples.filterMap fun i => (requestParts i).map Prod.fst := by
    decide +kernel
  refine (hsample kind).resolve_right fun hmem => ?_
  obtain ⟨i, -, hi⟩ := List.mem_filterMap.mp hmem
  obtain ⟨⟨k, b⟩, hparts, rfl⟩ := Option.map_eq_some_iff.mp hi
  exact h i b hparts

/-! ## The tests of R138 -/

theorem word2_length {n : Nat} (h : n < 65536) :
    (word2 ((BitVec.ofNat 16 n).extractLsb' 8 8) ((BitVec.ofNat 16 n).extractLsb' 0 8)).toNat = n := by
  rw [word2_bytes2, BitVec.toNat_ofNat, Nat.mod_eq_of_lt h]

theorem verdict_unknown {kind : Byte} (body : List Byte) (h : requestLength kind = none) :
    verdict (frameOf kind body) = .unknownKind := by
  have hcrc : crc16 (frameOf kind body).chars = 0 := crc16_append_self _
  unfold verdict
  rw [hcrc]
  simp only [frameOf, bytes2, List.cons_append, List.nil_append, h]
  simp

theorem verdict_wrongLength {kind : Byte} {body : List Byte} {n : Nat} (hbody : body.length < 65536)
    (hlen : requestLength kind = some n) (h : n ≠ body.length) : verdict (frameOf kind body) = .badFrame := by
  have hcrc : crc16 (frameOf kind body).chars = 0 := crc16_append_self _
  unfold verdict
  rw [hcrc]
  simp only [frameOf, bytes2, List.cons_append, List.nil_append, hlen, word2_length hbody, if_pos h.symm]
  simp

theorem verdict_wrongCrc {covered : List Byte} {c : BitVec 16} (h : c ≠ crc16 covered) :
    verdict { chars := covered ++ bytes2 c, abandoned := false } = .badFrame := by
  have hcrc : crc16 (covered ++ bytes2 c) ≠ 0 := fun hzero => h ((crc16_append_eq_zero covered c).mp hzero)
  unfold verdict
  exact if_pos (by simpa using hcrc)

theorem frameOf_complete {kind : Byte} {body : List Byte} (h : body.length < 65536) :
    isComplete (frameOf kind body).chars = true := by
  simp only [frameOf, bytes2, List.cons_append, List.nil_append, isComplete, word2_length h]
  simp

end Sys2Proof.Wire

namespace Sys2Proof.Machine

open Sys2Proof.Wire

/-- Settles O5: the tests of R138 in their order, and the reading of each body. -/
theorem requestFramesReadBack : Obligations.RequestFramesReadBack := by
  refine ⟨fun i kind body hparts => ?_, fun chars => rfl, fun covered c hc => verdict_wrongCrc hc, fun f x => ?_,
    fun kind body hbody => ⟨fun hnone => ?_, fun i b hparts => ⟨fun hlength => ?_, fun hlength => ?_⟩⟩⟩
  · have hframe : requestFrame i = frameOf kind body := by simp only [requestFrame, hparts]
    refine ⟨verdict_requestFrame hparts, ?_, ?_⟩
    · rw [hframe]; rfl
    · rw [hframe]
      exact frameOf_complete (requestLength_lt (requestLength_of_requestParts hparts))
  · exact verdict_frameOf (kind := 0x61) (body := portNibble f.port x :: (bytes2 f.tag ++ bytes3 f.moved)) rfl
      (congrArg (Option.map Instr.testFinish) (finishOfBytes_unassigned f x))
  · exact verdict_unknown body (requestLength_eq_none hnone)
  · exact verdict_wrongLength hbody (requestLength_of_requestParts hparts) hlength
  · obtain ⟨j, body', hread, hj, hsame⟩ := readsBack_of_length hparts hlength.symm
    have hkind := requestLength_of_requestParts hparts
    rw [hlength] at hkind
    exact ⟨j, body', verdict_frameOf hkind hread, hj, hsame⟩

end Sys2Proof.Machine
end

section
/-! PROOFS. What the declines of queues leave (O21), what the application of a commit leaves (O27), and what a FORGET drops
(O37). -/

namespace Sys2Proof.Machine

/-! ## Requests that are next -/

/-- A request whose block answers without a call for a NOTICE: the reply is queued, and the event ends (R137). -/
theorem exec_served {i : Instr} {act : State → Served} {s : State} {kind : Byte} {body : List Byte}
    (hexec : exec i s = event (State.serveRequest i act) s) (h : s.requestNext (.request i))
    (hparts : Wire.requestParts i = some (kind, body)) {v : Served} (hv : act s.taken = v)
    (hcall : v.callsNotice = false) :
    exec i s = .next (v.st.queueReply kind v.result v.body v.onSent).settle := by
  rw [hexec, event_serveRequest h hparts, hv, State.replyWith, hcall]
  rfl

/-! ## The declines of a port's queues -/

theorem State.returnsAssert_mg (s : State) (rs : List BidRecord) :
    (s.pool.returnsAssert rs → s.mg.afterReturns s.pool rs = (s.noticeCause .pool).mg)
      ∧ (¬ s.pool.returnsAssert rs → s.mg.afterReturns s.pool rs = s.mg) := by
  refine ⟨fun h => ?_, MgUnit.afterReturns_of_not_asserts⟩
  rw [MgUnit.afterReturns_of_asserts h, State.noticeCause_eq]

/-- Settles O21: the declines in their closed form, with each queue emptied before them. -/
theorem queuesAreDeclinedInOrder : Obligations.QueuesAreDeclinedInOrder := by
  refine ⟨fun pb s h => ⟨fun hrange => ?_, fun p hp => ?_⟩, fun s p cause => ?_⟩
  · exact exec_served rfl h rfl (v := { st := s.taken, result := .notAllowed, body := zeros 2 })
      (by rw [servePortFlush, index16_eq_none hrange]) rfl
  · exact exec_served rfl h rfl
      (v := { st := s.taken.declineQueues p .flushed, result := .ok, body := nat2 (s.port p).queued.length })
      (by rw [servePortFlush, index16_eq_some hp]; rfl) rfl
  · intro t declined frames
    obtain ⟨hfree, -, -, hsources, hmarked⟩ :=
      (s.mapPort p Port.clearQueues).declineRecords_spec p cause (s.port p).queued
    have hport := s.port_declineQueues p p cause
    rw [if_pos rfl] at hport
    refine ⟨s.declineQueues_sw p cause, hfree, fun hmarks => ?_, hsources, fun c => ?_, ?_, fun q hq => ?_,
      State.declineQueues_pending s p cause, State.declineQueues_pins s p cause, State.declineQueues_timeBase s p cause,
      State.declineQueues_groups s p cause, State.declineQueues_faults s p cause, State.declineQueues_log s p cause⟩
    · obtain ⟨hpool, hmg⟩ := hmarked hmarks
      obtain ⟨hasserts, hnot⟩ := s.returnsAssert_mg declined
      exact ⟨hpool, fun h => hmg.trans (hasserts h), fun h => hmg.trans (hnot h)⟩
    · rw [hport]
      exact Port.row_clearQueues _ c
    · rw [hport]; rfl
    · rw [State.port_declineQueues, if_neg hq]

/-! ## The application of a commit -/

theorem Port.withdraws_iff (P : Port) (c : ClassNo) :
    P.withdraws c = true ↔ (P.row c).contract.valid = true ∧ (P.stagedRow c).valid = false := by
  simp [Port.withdraws]

theorem Row.applied_valid {r : Row} {x : Contract} (hr : r.contract.valid = true) (hx : x.valid = true) :
    r.applied x = r.update x := by
  simp [Row.applied, hr, hx]

/-- A row made valid, kept invalid or withdrawn starts at 0 (R15, R17). -/
theorem Row.applied_fresh {r : Row} {x : Contract} (hempty : r.contract.valid = false → r.queue = [])
    (h : r.contract.valid = false ∨ x.valid = false) : r.applied x = Row.fresh x := by
  cases hr : r.contract.valid with
  | false => simp [Row.applied, hr, hempty hr, Row.fresh]
  | true =>
    have hx := h.resolve_left (by rw [hr]; decide)
    simp [Row.applied, hr, hx]

theorem mem_lastOfGroup {gs : List PortSet} {p : PortNo} : lastOfGroup gs p = true ↔ portMask p ∈ gs := by
  simp [lastOfGroup]

theorem MgUnit.afterCause_pending (u : MgUnit) (k : NoticeKind) :
    (u.afterCause k).notices.pending = u.notices.pending ||| k.mask := by
  rw [MgUnit.afterCause_eq]

theorem MgUnit.afterCause_pending_bit (u : MgUnit) (k j : NoticeKind) :
    (u.afterCause k).notices.pending.getLsbD j.index = true ↔ u.notices.pending.getLsbD j.index = true ∨ j = k := by
  rw [MgUnit.afterCause_pending, BitVec.getLsbD_or, NoticeKind.getLsbD_mask, Bool.or_eq_true, decide_eq_true_iff]

/-- Declines are causes of the POOL notice only (R55). -/
theorem State.pending_declineRecords (s : State) (p : PortNo) (cause : Cause) (rs : List BidRecord) {j : NoticeKind}
    (hj : j ≠ .pool) : (s.declineRecords p cause rs).mg.notices.pending.getLsbD j.index
      = s.mg.notices.pending.getLsbD j.index := by
  induction rs generalizing s with
  | nil => rfl
  | cons r rs ih =>
    refine (ih (State.declineRecord p cause s r)).trans ?_
    rw [declineRecord_mg, State.returnRecord_mg]
    split
    · rw [Bool.eq_iff_iff, MgUnit.afterCause_pending_bit]
      exact or_iff_left hj
    · rfl

section
variable {s : State} {p : PortNo} (h : (s.port p).commitStatus = .pending)
include h

/-- The port after the application of its commit. -/
theorem State.port_applyCommit_same : (s.applyCommit p).port p =
    { (s.port p).committed with counters := (s.port p).counters.afterDeclines (s.port p).withdrawnRecords } := by
  rw [State.applyCommit_eq h]
  exact State.port_setPort_same _ p _

theorem State.port_applyCommit_ne {q : PortNo} (hq : q ≠ p) : (s.applyCommit p).port q = s.port q := by
  rw [State.applyCommit_eq h]
  refine (State.port_setPort_ne _ _ hq).trans ?_
  rw [State.port_declineRecords, if_neg hq]

/-- Beside the port, the application leaves the declines, the group, and the cause of the COMMIT notice. -/
theorem State.applyCommit_links :
    let u := s.declineRecords p .allotmentWithdrawn (s.port p).withdrawnRecords
    let t := s.applyCommit p
    t.sw = u.sw ∧ t.pool = u.pool ∧ t.sources = u.sources ∧ t.groups = leaveGroup s.groups p
      ∧ t.mg = (if lastOfGroup s.groups p then u.mg.afterCause .commit else u.mg)
      ∧ t = { s with ports := t.ports, sources := t.sources, pool := t.pool, sw := t.sw, mg := t.mg,
                     groups := t.groups } := by
  intro u t
  have ht : t = _ := State.applyCommit_eq h
  have hframe := s.declineRecords_frame p .allotmentWithdrawn (s.port p).withdrawnRecords
  refine ⟨by rw [ht]; rfl, by rw [ht]; rfl, by rw [ht]; rfl, by rw [ht], by rw [ht], ?_⟩
  rw [ht]
  dsimp only [State.setPort]
  rw [hframe]

end

/-- The rows of a port after its commit: an updated row keeps its queue and remainders, any other starts at 0. -/
theorem Port.row_committed_cases (P : Port) (c : ClassNo) (hempty : (P.row c).contract.valid = false → (P.row c).queue = []) :
    ((P.row c).contract.valid = true → (P.stagedRow c).valid = true →
        (P.committed.row c).queue = (P.row c).queue
          ∧ (P.committed.row c).fb = min (P.row c).fb (1024 * (P.stagedRow c).floorBurst)
          ∧ (P.committed.row c).cb = min (P.row c).cb (1024 * (P.stagedRow c).ceilingBurst)
          ∧ (P.committed.row c).rf = (P.row c).rf ∧ (P.committed.row c).rc = (P.row c).rc)
      ∧ ((P.row c).contract.valid = false ∨ (P.stagedRow c).valid = false →
        (P.committed.row c).queue = [] ∧ (P.committed.row c).fb = 0 ∧ (P.committed.row c).cb = 0
          ∧ (P.committed.row c).rf = 0 ∧ (P.committed.row c).rc = 0) := by
  obtain ⟨x, y, hrow⟩ := P.row_committed c
  rw [hrow]
  refine ⟨fun hr hx => ?_, fun hkind => ?_⟩
  · rw [Row.applied_valid hr hx, ← burstBytes_eq, ← burstBytes_eq]
    exact ⟨rfl, rfl, rfl, rfl, rfl⟩
  · rw [Row.applied_fresh hempty hkind]
    exact ⟨rfl, rfl, rfl, rfl, rfl⟩

theorem Port.shares_committed (P : Port) (c : ClassNo) :
    ((P.committed.row c).e, (P.committed.row c).ce)
      = effectiveShares (4 / gradeValue P.committed.referenceGrade) P.staged.toList (P.stagedRow c) := by
  rw [← P.contract_committed c, ← P.contracts_committed]
  exact Port.shares_completed _ c

theorem runKeptBy_eq (w : ClassNo → Prop) [DecidablePred w] (v : ClassNo → Bool) (hv : ∀ c, v c = true ↔ w c)
    (x : Option Run) [Decidable (∃ y, x = some y ∧ w y.cls)] :
    runKeptBy v x = if ∃ y, x = some y ∧ w y.cls then none else x := by
  cases x with
  | none => simp [runKeptBy]
  | some y =>
    by_cases hy : v y.cls = true
    · simp [runKeptBy, Option.filter, hy, (hv y.cls).mp hy]
    · have hw : ¬ w y.cls := fun h => hy ((hv y.cls).mpr h)
      simp [runKeptBy, Option.filter, hy, hw]

/-- Settles O27: the closed form of the application, read at the port, at the links and in the groups. -/
theorem commitReplacesTheActiveSet : Obligations.CommitReplacesTheActiveSet := by
  intro s p h hempty P t withdrawn declined
  have hrecords : declined = P.withdrawnRecords :=
    List.flatMap_congr fun c _ => if_congr (P.withdraws_iff c).symm rfl rfl
  have hport : t.port p = { P.committed with counters := P.counters.afterDeclines declined } :=
    hrecords ▸ State.port_applyCommit_same h
  obtain ⟨hsw, hpool, hsources, hgroups, hmg, hframe⟩ := State.applyCommit_links h
  obtain ⟨hfree, -, -, houtstanding, hmarked⟩ := s.declineRecords_spec p .allotmentWithdrawn P.withdrawnRecords
  rw [← hrecords] at hsw hpool hsources hmg hfree houtstanding hmarked
  have hother : ∀ q, q ≠ p → t.port q = s.port q := fun q hq => State.port_applyCommit_ne h hq
  have hcontract := P.contract_committed
  have hrows := fun c => P.row_committed_cases c (hempty c)
  have hawards := P.committed_awards
  have hrun := P.committed_run
  have hreference := P.committed_reference
  have hshares := P.shares_committed
  have hcommitted := P.committed_frame
  generalize P.committed = Q at hport hcontract hrows hawards hrun hreference hshares hcommitted
  generalize t.port p = R at hport
  subst hport
  refine ⟨hcontract, fun c => (hrows c).1, fun c => (hrows c).2, ?_, ?_, fun e => ?_, fun hmarks => ⟨?_, ?_⟩, ?_, ?_,
    hreference, hother, fun c => ?_, ?_, hgroups, fun g hg => ?_, hframe, ?_⟩
  · exact hsw.trans (State.declineRecords_sw s p .allotmentWithdrawn declined)
  · exact (congrArg Pool.free hpool).trans hfree
  · exact (State.source_congr hsources e).trans (houtstanding e)
  · exact hpool.trans (hmarked hmarks).1
  · obtain ⟨hasserts, hnot⟩ := s.returnsAssert_mg declined
    refine ⟨{ s with mg := s.mg.afterReturns s.pool declined }, fun ha => ?_, fun ha => ?_, ?_⟩
    · rw [hasserts ha, State.noticeCause_eq]
    · rw [hnot ha]
    · rw [hmg, (hmarked hmarks).2, State.noticeCause_eq]
      exact if_congr mem_lastOfGroup rfl rfl
  · exact hawards.trans (List.map_congr_left fun a _ => if_congr (P.withdraws_iff a.bid.cls) rfl rfl)
  · exact hrun.trans (runKeptBy_eq withdrawn P.withdraws P.withdraws_iff P.run)
  · exact ⟨congrArg Prod.fst (hshares c), congrArg Prod.snd (hshares c)⟩
  · rw [hcommitted, ← hreference]
  · rw [hgroups] at hg
    obtain ⟨⟨x, -, rfl⟩, -⟩ := mem_leaveGroup.mp hg
    rw [names_and, names_not, names_portMask]
    simp
  · have hbit := s.pending_declineRecords p .allotmentWithdrawn declined (j := .commit) (by decide)
    rw [hmg, ← mem_lastOfGroup, ← hbit]
    split
    · rename_i hlast
      rw [MgUnit.afterCause_pending_bit]
      simp [hlast]
    · rename_i hlast
      simp [hlast]

/-! ## FORGET -/

theorem State.ports_toList (s : State) : s.ports.toList = ascending.map s.port := by
  refine List.ext_getElem (by simp [ascending]) fun i hi _ => ?_
  have hlt : i < 16 := by simpa using hi
  have hget : ∀ i (hi : i < 16), ascending[i]'(by simpa [ascending] using hi) = ⟨i, hi⟩ := by decide
  rw [List.getElem_map, hget i hlt]
  simp [State.port]

theorem returnRecords_setPort (s : State) (p : PortNo) (P : Port) (rs : List BidRecord) :
    (s.setPort p P).returnRecords rs = (s.returnRecords rs).setPort p P := by
  induction rs generalizing s with
  | nil => rfl
  | cons r rs ih =>
    show ((s.setPort p P).returnRecord r).returnRecords rs = _
    rw [returnRecord_setPort]
    exact ih (s.returnRecord r)

theorem State.returnRecords_append (s : State) (rs xs : List BidRecord) :
    s.returnRecords (rs ++ xs) = (s.returnRecords rs).returnRecords xs := List.foldl_append

/-- One port of a FORGET (R94, R97). -/
def State.forgetPort (s : State) (p : PortNo) : State := if (s.port p).mode = .rehearsal then s else s.dropRecords p

/-- The records that a FORGET drops of a port. -/
def Port.forgotten (P : Port) : List BidRecord := if P.mode = .rehearsal then [] else P.records

theorem State.forgetPort_eq (s : State) (p : PortNo) : s.forgetPort p =
    (s.setPort p (if (s.port p).mode = .rehearsal then s.port p else (s.port p).dropped)).returnRecords
      (s.port p).forgotten := by
  unfold State.forgetPort Port.forgotten
  split
  · rw [State.setPort_port]; rfl
  · exact State.dropRecords_eq s p

/-- The port after a FORGET (R94, R97). -/
def Port.forgot (P : Port) : Port := if P.mode = .rehearsal then P else P.dropped

/-- The ports of the list after a FORGET, their records not yet returned. -/
def State.forgetPorts (s : State) (ps : List PortNo) : State := ps.foldl (fun s p => s.setPort p (s.port p).forgot) s

theorem State.forgetPorts_frame (s : State) (ps : List PortNo) :
    s.forgetPorts ps = { s with ports := (s.forgetPorts ps).ports } := by
  induction ps generalizing s with
  | nil => rfl
  | cons p ps ih => exact ih (s.setPort p (s.port p).forgot)

theorem State.port_forgetPorts (s : State) {ps : List PortNo} (hnodup : ps.Nodup) (q : PortNo) :
    (s.forgetPorts ps).port q = if q ∈ ps then (s.port q).forgot else s.port q := by
  induction ps generalizing s with
  | nil => rfl
  | cons p ps ih =>
    obtain ⟨hp, hnodup⟩ := List.nodup_cons.mp hnodup
    refine (ih (s.setPort p (s.port p).forgot) hnodup).trans ?_
    rw [State.port_setPort]
    by_cases hq : q = p
    · subst hq; simp [hp]
    · simp [hq]

/-- A FORGET empties the ports one after another, and their records are returned in port order. -/
theorem foldl_forgetPort (s : State) (rs : List BidRecord) {ps : List PortNo} (hnodup : ps.Nodup) :
    ps.foldl State.forgetPort (s.returnRecords rs)
      = (s.forgetPorts ps).returnRecords (rs ++ ps.flatMap fun p => (s.port p).forgotten) := by
  induction ps generalizing s rs with
  | nil => simp [State.forgetPorts]
  | cons p ps ih =>
    obtain ⟨hp, hnodup⟩ := List.nodup_cons.mp hnodup
    have hport : (s.returnRecords rs).port p = s.port p := State.port_congr (State.returnRecords_ports s rs) p
    have hone : (s.returnRecords rs).forgetPort p
        = (s.setPort p (s.port p).forgot).returnRecords (rs ++ (s.port p).forgotten) := by
      rw [State.forgetPort_eq, hport, ← returnRecords_setPort, State.returnRecords_append]
      rfl
    have hrest : (ps.flatMap fun q => ((s.setPort p (s.port p).forgot).port q).forgotten)
        = ps.flatMap fun q => (s.port q).forgotten :=
      List.flatMap_congr fun q hq => by
        have hne : q ≠ p := fun heq => hp (heq ▸ hq)
        rw [State.port_setPort_ne _ _ hne]
    rw [List.foldl_cons, hone, ih _ _ hnodup, hrest, List.append_assoc, List.flatMap_cons]
    rfl

/-- All that a FORGET drops. -/
def State.forgottenRecords (s : State) : List BidRecord := ascending.flatMap fun p => (s.port p).forgotten

theorem State.forgottenRecords_eq (s : State) :
    s.forgottenRecords = (s.ports.toList.filter (fun P => P.mode != .rehearsal)).flatMap Port.records := by
  rw [State.ports_toList, State.forgottenRecords]
  induction ascending with
  | nil => rfl
  | cons p ps ih =>
    rw [List.flatMap_cons, ih, List.map_cons, List.filter_cons]
    by_cases hmode : (s.port p).mode = .rehearsal
    · simp [Port.forgotten, hmode]
    · simp [Port.forgotten, hmode]

theorem State.takeForget_eq (s : State) : s.takeForget =
    ((s.forgetPorts ascending).returnRecords s.forgottenRecords).pushSwitch .forgotten := by
  have hfold := foldl_forgetPort s [] ascending_nodup
  exact congrArg (fun t : State => t.pushSwitch .forgotten) hfold

/-- While PAUSE is asserted, or the count is above the low mark, a return asserts nothing (R55). -/
theorem Pool.not_returnsAssert {u : Pool} (h : u.pause = true ∨ u.lowMark < u.free) (rs : List BidRecord) :
    ¬ u.returnsAssert rs := by
  rintro ⟨-, hpause, hlow⟩
  rcases h with h | h
  · rw [h] at hpause; cases hpause
  · omega

/-- Settles O37: the ports emptied, and the returns of all that they held. -/
theorem forgetDropsTheRecords : Obligations.ForgetDropsTheRecords := by
  intro s h
  have hrx : Wire.SwIn.forget.bytes.length = 3 := rfl
  have hpast : s.pastFrame .forget = { s with sw := { s.sw with rx := s.sw.rx.drop 3 } } := by rw [State.pastFrame, hrx]
  have hports : ∀ q, (s.pastFrame .forget).takeForget.port q = (s.port q).forgot := fun q => by
    rw [State.takeForget_eq]
    refine (State.port_congr (State.returnRecords_ports _ _) q).trans ?_
    rw [State.port_forgetPorts _ ascending_nodup, if_pos (mem_ascending q)]
    rfl
  have hrecords : (s.pastFrame .forget).forgottenRecords
      = (s.ports.toList.filter (fun P => P.mode != .rehearsal)).flatMap Port.records := State.forgottenRecords_eq _
  have hframe := (s.pastFrame .forget).forgetPorts_frame ascending
  have htaken := State.takeForget_eq (s.pastFrame .forget)
  generalize (s.pastFrame .forget).forgetPorts ascending = v at hframe htaken
  obtain ⟨hfree, hlow, hhigh, hsources, hmarked⟩ := v.returnRecords_spec (s.pastFrame .forget).forgottenRecords
  rw [hrecords] at htaken hfree hlow hhigh hsources hmarked
  generalize (s.ports.toList.filter (fun P => P.mode != .rehearsal)).flatMap Port.records = dropped at *
  have hpool : v.pool = s.pool := by rw [hframe]; rfl
  have hmg : v.mg = s.mg := by rw [hframe]; rfl
  have hsw : v.sw = { s.sw with rx := s.sw.rx.drop 3 } := by rw [hframe, hpast]
  have hsource : ∀ e, v.source e = s.source e := State.source_congr (by rw [hframe]; rfl)
  rw [hpool] at hfree hlow hhigh hmarked
  have hexec : exec .forget s = .next (s.pastFrame .forget).takeForget.settle := event_takeFrame h
  generalize (s.pastFrame .forget).takeForget = u at hexec hports htaken
  refine ⟨u, hexec, ?_, fun p hmode => ?_, fun p hmode => ⟨fun c => ?_, ?_⟩,
    ⟨?_, fun e => ?_, fun hempty => ⟨?_, ?_⟩, fun hkept hmarks hsome => ?_⟩, ?_, ?_, ?_⟩
  · rw [htaken, State.pushSwitch, State.returnRecords_sw, hsw]
  · rw [hports, Port.forgot, if_pos hmode]
  · rw [hports, Port.forgot, if_neg hmode]
    exact Port.row_dropped _ c
  · rw [hports, Port.forgot, if_neg hmode]
    rfl
  all_goals rw [htaken]
  · exact hfree
  · exact (hsources e).trans (by rw [hsource])
  · rw [hempty]; exact hpool
  · rw [hempty]; exact hmg
  · obtain ⟨hafter, hnotices⟩ := hmarked hmarks
    have hquiet := Pool.not_returnsAssert hkept dropped
    rw [MgUnit.afterReturns_of_not_asserts hquiet, hmg] at hnotices
    refine ⟨hnotices, ?_⟩
    have hpause : (s.pool.afterReturns dropped).pause
        = (s.pool.pause && decide (s.pool.free + dropped.length < s.pool.highMark)) := by
      simp only [Pool.afterReturns, if_neg hsome]
      rcases hkept with hasserted | habove
      · rw [hasserted]; rfl
      · rw [decide_eq_false (show ¬ s.pool.free + 1 ≤ s.pool.lowMark by omega), Bool.or_false]
    show (v.returnRecords dropped).pool.pause = (s.pool.pause && decide ((v.returnRecords dropped).pool.free < _))
    rw [hfree, hafter, hpause]
  · exact hlow
  · exact hhigh
  · simp only [State.pushSwitch_pending, State.pushSwitch_pins, State.pushSwitch_timeBase, State.pushSwitch_groups,
      State.pushSwitch_faults, State.pushSwitch_log, State.returnRecords_pending, State.returnRecords_pins,
      State.returnRecords_timeBase, State.returnRecords_groups, State.returnRecords_faults, State.returnRecords_log]
    rw [hframe, hpast]
    exact ⟨rfl, rfl, rfl, rfl, rfl, rfl⟩

end Sys2Proof.Machine
end

section
/-! PROOFS. The receive buffer of the switch link: the arrival of bytes (O28), the failing frames (O29), the end of RESYNC
(O30), the check pulse and the frames sent (O31). -/

namespace Sys2Proof.Machine

open Sys2Proof.Wire (SwIn Examined examine hunt syncBytes)

/-! ## The switch unit and the reports -/

theorem reportFault_setSw (s : State) (u : SwitchUnit) (f : FaultReport) :
    ({ s with sw := u } : State).reportFault f = { s.reportFault f with sw := u } := by
  rw [State.reportFault_eq, State.reportFault_eq]
  dsimp only
  split
  · rw [State.noticeCause_eq, State.noticeCause_eq]
  · rfl

theorem reportFault_setRx (s : State) (rx : List Byte) (f : FaultReport) :
    (s.setRx rx).reportFault f = (s.reportFault f).setRx rx := by
  have hset := reportFault_setSw s { s.sw with rx := rx } f
  rw [State.setRx, hset, State.setRx, State.reportFault_sw]

/-- The unit without framing, its buffer `rx` (R122, R123). -/
def State.unframed (s : State) (rx : List Byte) : State :=
  { s with sw := { s.sw with rx := rx, link := .resync, checkPulse := none } }

theorem State.loseFraming_eq (s : State) (rx : List Byte) :
    (s.setRx rx).loseFraming = (s.unframed rx).reportFault (s.plainFault .linkResync) := rfl

theorem State.setRx_setRx (s : State) (rx rx' : List Byte) : (s.setRx rx).setRx rx' = s.setRx rx' := rfl

theorem SwitchUnit.deferred_iff (u : SwitchUnit) : u.deferred = true ↔ 4000 < u.outq.length := by
  simp [SwitchUnit.deferred]

/-! ## The arrival of bytes -/

section
variable {s : State}

theorem State.huntRx_synced (h : s.sw.link = .synced) : s.huntRx = s := by
  unfold State.huntRx
  exact if_neg fun hand => by rw [h] at hand; cases hand.1

theorem State.huntRx_deferred (h : 4000 < s.sw.outq.length) : s.huntRx = s := by
  unfold State.huntRx
  exact if_neg fun hand => by rw [s.sw.deferred_iff.mpr h] at hand; exact absurd hand.2 (by decide)

theorem State.huntRx_resync (h : s.sw.link = .resync) (hq : s.sw.outq.length ≤ 4000) :
    s.huntRx = s.setRx (hunt s.sw.rx) := by
  have hnot : s.sw.deferred = false := by
    rw [Bool.eq_false_iff, Ne, SwitchUnit.deferred_iff]; omega
  unfold State.huntRx
  exact if_pos ⟨h, by rw [hnot]; rfl⟩

/-- The buffer after a byte that arrives in RESYNC (R119, R123, R124). -/
def State.joined (s : State) (rx : List Byte) (b : Byte) : List Byte :=
  if 256 ≤ rx.length then rx else if 4000 < s.sw.outq.length then rx ++ [b] else hunt (rx ++ [b])

theorem State.receiveByte_room (b : Byte) (h : s.sw.rx.length < 256) :
    s.receiveByte b = (s.setRx (s.sw.rx ++ [b])).huntRx := if_pos h

theorem State.receiveByte_lost (b : Byte) (hfull : 256 ≤ s.sw.rx.length) (h : s.sw.link = .synced) :
    s.receiveByte b = (s.setRx []).loseFraming := by
  unfold State.receiveByte
  rw [if_neg (Nat.not_lt.mpr hfull), h]

theorem State.receiveByte_resync (b : Byte) (h : s.sw.link = .resync) :
    s.receiveByte b = s.setRx (s.joined s.sw.rx b) := by
  unfold State.joined
  split
  · rename_i hfull
    unfold State.receiveByte
    rw [if_neg (Nat.not_lt.mpr hfull), h]
    rfl
  · rename_i hroom
    rw [State.receiveByte_room b (Nat.lt_of_not_le hroom)]
    split
    · rename_i hq
      exact State.huntRx_deferred hq
    · rename_i hq
      exact State.huntRx_resync h (Nat.le_of_not_lt hq)

theorem State.receiveBytes_resync (bs : List Byte) (h : s.sw.link = .resync) :
    s.receiveBytes bs = s.setRx (bs.foldl s.joined s.sw.rx) := by
  induction bs generalizing s with
  | nil => rfl
  | cons b bs ih =>
    show (s.receiveByte b).receiveBytes bs = _
    rw [State.receiveByte_resync b h]
    exact ih (s := s.setRx (s.joined s.sw.rx b)) h

theorem State.receiveBytes_append (s : State) (bs cs : List Byte) :
    s.receiveBytes (bs ++ cs) = (s.receiveBytes bs).receiveBytes cs := List.foldl_append

/-- While examination is deferred the bytes wait, as far as the buffer has room. -/
theorem State.foldl_joined_deferred (hq : 4000 < s.sw.outq.length) (bs rx : List Byte) :
    bs.foldl s.joined rx = rx ++ bs.take (256 - rx.length) := by
  induction bs generalizing rx with
  | nil => simp
  | cons b bs ih =>
    rw [List.foldl_cons, ih]
    unfold State.joined
    rw [if_pos hq]
    split
    · rename_i hfull
      rw [Nat.sub_eq_zero_of_le hfull, List.take_zero, List.take_zero]
    · rename_i hroom
      obtain ⟨n, hn⟩ := Nat.exists_eq_add_of_lt (Nat.lt_of_not_le hroom)
      have hlong : 256 - rx.length = n + 1 := by omega
      have hshort : 256 - (rx ++ [b]).length = n := by rw [List.length_append, List.length_singleton]; omega
      rw [hlong, hshort, List.take_succ_cons, List.append_assoc]
      rfl

/-- Bytes beyond the room of the buffer in SYNCED, with examination deferred: the first of them empties the buffer and loses
the framing, and those behind it wait in RESYNC (R119, R123). -/
theorem State.receiveBytes_beyond (h : s.sw.link = .synced) (hq : 4000 < s.sw.outq.length) {bytes : List Byte}
    (hlong : 256 - s.sw.rx.length < bytes.length) :
    s.receiveBytes bytes
      = (s.unframed ((bytes.drop (256 - s.sw.rx.length + 1)).take 256)).reportFault (s.plainFault .linkResync) := by
  obtain ⟨b, behind, hdrop⟩ := List.exists_cons_of_ne_nil (l := bytes.drop (256 - s.sw.rx.length))
    (by rw [Ne, List.drop_eq_nil_iff]; omega)
  have hbehind : bytes.drop (256 - s.sw.rx.length + 1) = behind := by
    rw [← List.drop_drop, hdrop]; rfl
  have hfill : s.receiveBytes (bytes.take (256 - s.sw.rx.length))
      = s.setRx (s.sw.rx ++ bytes.take (256 - s.sw.rx.length)) ∧
      256 ≤ (s.sw.rx ++ bytes.take (256 - s.sw.rx.length)).length := by
    rw [List.length_append, List.length_take]
    by_cases hroom : s.sw.rx.length ≤ 256
    · exact ⟨receiveBytes_synced h (by rw [List.length_take]; omega), by omega⟩
    · rw [Nat.sub_eq_zero_of_le (Nat.le_of_not_le hroom), List.take_zero, List.append_nil]
      exact ⟨rfl, by omega⟩
  have hlost : (s.setRx (s.sw.rx ++ bytes.take (256 - s.sw.rx.length))).receiveByte b
      = (s.unframed []).reportFault (s.plainFault .linkResync) := by
    rw [State.receiveByte_lost (s := s.setRx _) b hfill.2 h, State.setRx_setRx, State.loseFraming_eq]
  have hsw : ((s.unframed []).reportFault (s.plainFault .linkResync)).sw = (s.unframed []).sw := State.reportFault_sw _ _
  calc s.receiveBytes bytes
      = (s.receiveBytes (bytes.take (256 - s.sw.rx.length))).receiveBytes (b :: behind) := by
        rw [← State.receiveBytes_append, ← hdrop, List.take_append_drop]
    _ = ((s.unframed []).reportFault (s.plainFault .linkResync)).receiveBytes behind := by
        rw [hfill.1, ← hlost]; rfl
    _ = _ := by
        rw [State.receiveBytes_resync behind (by rw [hsw]; rfl), State.foldl_joined_deferred (by rw [hsw]; exact hq),
          ← reportFault_setRx, hsw, hbehind]
        rfl

/-! ## Commands that take nothing -/

theorem State.finds_of_not_examining (h : s.sw.examining = false) (want : Examined → Bool) : s.finds want = false := by
  rw [State.finds, h, Bool.false_and]

theorem examining_of_resync {u : SwitchUnit} (h : u.link = .resync) : u.examining = false := by
  simp [SwitchUnit.examining, h]

theorem examining_of_deferred {u : SwitchUnit} (h : 4000 < u.outq.length) : u.examining = false := by
  simp [SwitchUnit.examining, u.deferred_iff.mpr h]

theorem examining_of_synced {u : SwitchUnit} (h : u.link = .synced) (hq : u.outq.length ≤ 4000) : u.examining = true := by
  have hnot : u.deferred = false := by rw [Bool.eq_false_iff, Ne, SwitchUnit.deferred_iff]; omega
  simp [SwitchUnit.examining, h, hnot]

theorem takeFrame_of_not_found {f : SwIn} {handle : State → State} (hbefore : s.finds (isFrame f) = false)
    (hafter : (s.receiveBytes f.bytes).finds (isFrame f) = false) :
    State.takeFrame f handle s = s.receiveBytes f.bytes := by
  have harrive : s.arrive (isFrame f) f.bytes = s.receiveBytes f.bytes := by
    rw [State.arrive, hbefore]; rfl
  rw [takeFrame_eq, harrive, hafter]
  rfl

/-- The command of a frame is an event that takes the frame; that of a SYNC is so in SYNCED (R119, R125). -/
theorem exec_frameCommand (hpin : s.pins.rstN = true) {f : SwIn} (h : f = .sync → s.sw.link = .synced) :
    ∃ handle, exec (frameCommand f) s = .next (State.takeFrame f handle s).settle := by
  cases f with
  | bid b => exact ⟨State.takeBid b, event_high hpin⟩
  | withdraw p t => exact ⟨State.takeWithdraw p t, event_high hpin⟩
  | finish f => exact ⟨State.takeFinish f, event_high hpin⟩
  | grade p g => exact ⟨State.takeGrade p g, event_high hpin⟩
  | forget => exact ⟨State.takeForget, event_high hpin⟩
  | sync =>
    refine ⟨id, ?_⟩
    show execSyncInSynced s = _
    rw [execSyncInSynced, event_high hpin, h rfl]

/-- Where nothing is examined before the bytes of a command or behind them, they arrive, and nothing is taken. -/
theorem exec_carriesBytes {c : Instr} {bytes : List Byte} (hpin : s.pins.rstN = true)
    (hc : carriesBytes c bytes ∨ (c = .syncInSynced ∧ bytes = syncBytes ∧ s.sw.link = .synced))
    (hbefore : s.sw.examining = false) (hafter : (s.receiveBytes bytes).sw.examining = false) :
    exec c s = .next (s.receiveBytes bytes).settle := by
  have hframe : ∀ f : SwIn, (f = .sync → s.sw.link = .synced) → bytes = f.bytes →
      exec (frameCommand f) s = .next (s.receiveBytes bytes).settle := fun f hf hbytes => by
    obtain ⟨handle, hexec⟩ := exec_frameCommand hpin hf
    rw [hexec, takeFrame_of_not_found (State.finds_of_not_examining hbefore _)
      (State.finds_of_not_examining (hbytes ▸ hafter) _), hbytes]
  have harrive : ∀ want, s.arrive want bytes = s.receiveBytes bytes := fun want => by
    rw [State.arrive, State.finds_of_not_examining hbefore]; rfl
  rcases hc with (⟨f, hf, rfl, hbytes⟩ | rfl | rfl) | ⟨rfl, hbytes, hlink⟩
  · exact hframe f (fun h => absurd h hf) hbytes
  · refine (execDamagedFrame_eq bytes s).trans ((event_high hpin).trans ?_)
    rw [harrive, State.discardDamaged, hafter]
    rfl
  · refine (execLossOfFraming_eq bytes s).trans ((event_high hpin).trans ?_)
    rw [harrive, State.discardLost, State.finds_of_not_examining hafter]
    rfl
  · exact hframe .sync (fun _ => hlink) hbytes

theorem State.atSync_deferred (hq : 4000 < s.sw.outq.length) : s.atSync = false := by
  simp [State.atSync, s.sw.deferred_iff.mpr hq]

/-- A SYNC_RESYNC_END in RESYNC: the SYNC stands in the buffer, or its bytes arrive (R124). -/
theorem exec_syncResyncEnd (hpin : s.pins.rstN = true) (h : s.sw.link = .resync) :
    let u := if s.atSync then s else s.receiveBytes syncBytes
    exec .syncResyncEnd s = .next (if u.atSync then u.endResync else u).settle := by
  show execSyncResyncEnd s = _
  rw [execSyncResyncEnd, event_high hpin, h]

theorem State.setRx_self (s : State) : s.setRx s.sw.rx = s := rfl

end

/-- Settles O28: what arrives in each state of the link, and that nothing is examined there. -/
theorem bytesJoinTheReceiveBuffer : Obligations.BytesJoinTheReceiveBuffer := by
  intro s hpin withRx lost
  have hbyte : ∀ b, exec (.swByteReceived b) s = .next (s.receiveByte b).settle :=
    fun b => event_high (f := fun s => s.receiveByte b) hpin
  have hresume : exec .examinationResume s = .next s.huntRx.settle := event_high hpin
  refine ⟨fun b hroom h => ?_, fun b hroom h hq => ?_, fun b hroom h hq => ?_, fun b hfull h => ?_, fun b hfull h => ?_,
    fun h hq => ?_, fun h => ?_, fun c bytes h hc => ?_, fun c bytes h hq hc => ⟨fun hroom => ?_, fun hlong => ?_⟩,
    fun f h hq hroom hbefore hafter => ?_⟩
  · rw [hbyte, State.receiveByte_room b hroom, State.huntRx_synced (s := s.setRx (s.sw.rx ++ [b])) h]
    rfl
  · rw [hbyte, State.receiveByte_room b hroom, State.huntRx_deferred (s := s.setRx (s.sw.rx ++ [b])) hq]
    rfl
  · rw [hbyte, State.receiveByte_room b hroom, State.huntRx_resync (s := s.setRx (s.sw.rx ++ [b])) h hq]
    rfl
  · rw [hbyte, State.receiveByte_lost b hfull h]
    rfl
  · rw [hbyte, State.receiveByte_resync b h, State.joined, if_pos hfull]
    rfl
  · rw [hresume, State.huntRx_resync h hq]
    rfl
  · rw [hresume]
    rcases h with h | hq
    · rw [State.huntRx_synced h]
    · rw [State.huntRx_deferred hq]
  · have harrived : s.receiveBytes bytes = withRx (bytes.foldl s.joined s.sw.rx) := State.receiveBytes_resync bytes h
    rcases hc with hc | ⟨rfl, rfl, hq⟩
    · rw [exec_carriesBytes hpin (.inl hc) (examining_of_resync h) (by rw [harrived]; exact examining_of_resync h), harrived]
      rfl
    · rw [exec_syncResyncEnd hpin h, State.atSync_deferred hq]
      have hstill : (withRx (syncBytes.foldl s.joined s.sw.rx)).atSync = false := State.atSync_deferred hq
      simp only [Bool.false_eq_true, if_false, harrived, hstill]
      rfl
  · have harrived : s.receiveBytes bytes = withRx (s.sw.rx ++ bytes) := by
      by_cases hover : s.sw.rx.length ≤ 256
      · exact receiveBytes_synced h (by omega)
      · have hnil : bytes = [] := List.eq_nil_of_length_eq_zero (by omega)
        rw [hnil, List.append_nil]
        rfl
    rw [exec_carriesBytes hpin (hc.imp_right fun ⟨hcmd, hb⟩ => ⟨hcmd, hb, h⟩) (examining_of_deferred hq)
      (by rw [harrived]; exact examining_of_deferred hq), harrived]
  · have harrived := State.receiveBytes_beyond h hq hlong
    rw [exec_carriesBytes hpin (hc.imp_right fun ⟨hcmd, hb⟩ => ⟨hcmd, hb, h⟩) (examining_of_deferred hq) ?_, harrived]
    · rfl
    · rw [harrived, State.reportFault_sw]
      exact examining_of_resync rfl
  · obtain ⟨handle, hexec⟩ := exec_frameCommand hpin (f := f) fun _ => h
    have harrived : s.receiveBytes f.bytes = withRx (s.sw.rx ++ f.bytes) := receiveBytes_synced h hroom
    have hnot : ∀ rx, (∀ n, examine rx ≠ .good f n) → isFrame f (examine rx) = false := fun rx hx =>
      Bool.eq_false_of_not_eq_true fun hgood => by
        obtain ⟨n, hn⟩ := isFrame_iff.mp hgood
        exact hx n hn
    rw [hexec, takeFrame_of_not_found, harrived]
    · rw [State.finds, hnot _ hbefore, Bool.and_false]
    · rw [harrived]
      show (_ && isFrame f (examine (s.sw.rx ++ f.bytes))) = false
      rw [hnot _ hafter, Bool.and_false]

/-! ## Frames that fail -/

theorem examine_empty_not (want : Examined → Bool) (h : want .incomplete = false) (s : State) (hrx : s.sw.rx = []) :
    s.finds want = false := by
  have hempty : examine s.sw.rx = .incomplete := by rw [hrx]; rfl
  rw [State.finds, hempty, h, Bool.and_false]

/-- A failing frame stands at the head, or arrives behind an empty buffer (entry 4). -/
theorem State.arrive_failing {s : State} {bytes : List Byte} {want : Examined → Bool} (h : s.sw.link = .synced)
    (hq : s.sw.outq.length ≤ 4000) (hlength : bytes.length ≤ 256) (hwant : want .incomplete = false)
    (hfails : want (examine (if s.sw.rx = [] then bytes else s.sw.rx)) = true) :
    s.arrive want bytes = s.setRx (if s.sw.rx = [] then bytes else s.sw.rx) := by
  by_cases hrx : s.sw.rx = []
  · rw [if_pos hrx, State.arrive, examine_empty_not want hwant s hrx]
    have harrived := receiveBytes_synced (bs := bytes) h (by rw [hrx]; simpa using hlength)
    rw [hrx, List.nil_append] at harrived
    exact harrived
  · rw [if_neg hrx] at hfails ⊢
    rw [State.arrive, State.finds, examining_of_synced h hq, hfails]
    rfl

/-- Settles O29: the failing frame is at the head once its bytes are there, and is discarded. -/
theorem failingFramesAreDiscarded : Obligations.FailingFramesAreDiscarded := by
  intro s bytes hpin h hq hlength rx
  refine ⟨fun n hdamaged => ?_, fun hlost => ?_⟩
  · have harrived := State.arrive_failing (want := isDamaged) h hq hlength rfl (by rw [show examine _ = _ from hdamaged]; rfl)
    intro t
    refine (execDamagedFrame_eq bytes s).trans ((event_high hpin).trans ?_)
    rw [harrived, State.discardDamaged, examining_of_synced (u := (s.setRx rx).sw) h hq, if_pos rfl]
    have hexamined : examine (s.setRx rx).sw.rx = .damaged n := hdamaged
    rw [hexamined]
    rfl
  · have harrived := State.arrive_failing (want := isLost) h hq hlength rfl (by rw [show examine _ = _ from hlost]; rfl)
    intro t
    refine (execLossOfFraming_eq bytes s).trans ((event_high hpin).trans ?_)
    have hfinds : (s.setRx rx).finds isLost = true := by
      rw [State.finds, examining_of_synced (u := (s.setRx rx).sw) h hq]
      show isLost (examine rx) = true
      rw [hlost]
      rfl
    have hlose : ((s.setRx rx).dropRx 1).loseFraming
        = (s.unframed (rx.drop 1)).reportFault (s.plainFault .linkResync) := rfl
    have hsw : ((s.unframed (rx.drop 1)).reportFault (s.plainFault .linkResync)).sw = (s.unframed (rx.drop 1)).sw :=
      State.reportFault_sw _ _
    rw [harrived, State.discardLost, hfinds, if_pos rfl, hlose, State.huntRx_resync (by rw [hsw]; rfl) (by rw [hsw]; exact hq),
      ← reportFault_setRx, hsw]
    rfl

/-! ## The end of RESYNC -/

/-- The hunt discards the positions that begin no SYNC, and stops where one begins or may begin (R124). -/
theorem hunt_spec (l : List Byte) : ∃ k, k ≤ l.length ∧ hunt l = l.drop k
    ∧ (∀ j < k, ¬ syncBytes <+: l.drop j ∧ ¬ l.drop j <+: syncBytes)
    ∧ (syncBytes <+: hunt l ∨ hunt l <+: syncBytes) := by
  induction l with
  | nil => exact ⟨0, Nat.le_refl _, rfl, fun j hj => absurd hj (Nat.not_lt_zero j), .inr List.nil_prefix⟩
  | cons b l ih =>
    by_cases hstop : syncBytes <+: b :: l ∨ b :: l <+: syncBytes
    · have hhunt : hunt (b :: l) = b :: l := if_pos (by simpa using hstop)
      exact ⟨0, Nat.zero_le _, hhunt, fun j hj => absurd hj (Nat.not_lt_zero j), hhunt.symm ▸ hstop⟩
    · have hhunt : hunt (b :: l) = hunt l := if_neg (by simpa using hstop)
      obtain ⟨k, hk, heq, hbefore, hend⟩ := ih
      refine ⟨k + 1, Nat.succ_le_succ hk, hhunt.trans heq, fun j hj => ?_, hhunt.symm ▸ hend⟩
      cases j with
      | zero => exact not_or.mp hstop
      | succ j => exact hbefore j (Nat.lt_of_succ_lt_succ hj)

theorem hunt_of_prefix {l : List Byte} (h : l <+: syncBytes) : hunt l = l := by
  cases l with
  | nil => rfl
  | cons b l => exact if_pos (by simp [h])

/-- The bytes of a SYNC that arrive behind an empty buffer stay (R124). -/
theorem State.foldl_joined_sync {s : State} (hq : s.sw.outq.length ≤ 4000) (bs : List Byte) {l : List Byte}
    (h : l ++ bs <+: syncBytes) : bs.foldl s.joined l = l ++ bs := by
  induction bs generalizing l with
  | nil => exact (List.append_nil l).symm
  | cons b bs ih =>
    have hlength : l.length ≤ 3 := ((List.prefix_append l (b :: bs)).trans h).length_le
    have happend : l ++ b :: bs = (l ++ [b]) ++ bs := by rw [List.append_assoc]; rfl
    have hone : l ++ [b] <+: syncBytes := (happend ▸ List.prefix_append (l ++ [b]) bs).trans h
    rw [List.foldl_cons, State.joined, if_neg (by omega), if_neg (by omega), hunt_of_prefix hone, happend]
    exact ih (happend ▸ h)

theorem State.atSync_iff {s : State} (h : s.sw.link = .resync) (hq : s.sw.outq.length ≤ 4000) :
    s.atSync = true ↔ syncBytes <+: hunt s.sw.rx := by
  have hnot : s.sw.deferred = false := by rw [Bool.eq_false_iff, Ne, SwitchUnit.deferred_iff]; omega
  simp [State.atSync, h, hnot]

/-- Settles O30: the SYNC stands in the buffer or arrives whole, and ends RESYNC. -/
theorem syncEndsResync : Obligations.SyncEndsResync := by
  refine ⟨hunt_spec, fun s hpin => ⟨fun h hq hrx => ?_, fun hnext => ?_, fun h => ?_, fun h => ?_⟩⟩
  · rw [exec_syncResyncEnd hpin h]
    by_cases hstands : s.atSync = true
    · rw [if_pos hstands, if_pos hstands]
      rfl
    · have hempty : s.sw.rx = [] := hrx.resolve_right fun hprefix => hstands ((State.atSync_iff h hq).mpr hprefix)
      have harrived : s.receiveBytes syncBytes = s.setRx syncBytes := by
        rw [State.receiveBytes_resync _ h, hempty]
        exact congrArg s.setRx (State.foldl_joined_sync hq syncBytes List.prefix_rfl)
      have hhunt : hunt (s.setRx syncBytes).sw.rx = syncBytes := hunt_of_prefix List.prefix_rfl
      have hsync : (s.setRx syncBytes).atSync = true :=
        (State.atSync_iff (s := s.setRx syncBytes) h hq).mpr ⟨[], (List.append_nil _).trans hhunt.symm⟩
      have hall : syncBytes.drop 3 = [] := List.drop_of_length_le (Nat.le_of_eq (SwIn.bytes_length .sync))
      rw [if_neg hstands, harrived, if_pos hsync, State.endResync, hhunt, hall, hempty]
      rfl
  · have htaken := event_takeFrame (handle := id) hnext
    rw [event_high hpin] at htaken
    show execSyncInSynced s = _
    rw [execSyncInSynced, event_high hpin, hnext.2.1]
    exact htaken
  · show execSyncResyncEnd s = _
    rw [execSyncResyncEnd, event_high hpin, h]
  · show execSyncInSynced s = _
    rw [execSyncInSynced, event_high hpin, h]

/-! ## The check pulse and the frames sent -/

theorem settle_sending (s : State) : s.settle.sw.sending = !s.sw.outq.isEmpty := by
  simp [State.settle, State.drivePins, State.beginSwitch]

/-- Settles O31: both events at their state, and the pin and the next frame at the end of the event. -/
theorem pulseExpiresAndFramesLeave : Obligations.PulseExpiresAndFramesLeave := by
  intro s hpin
  have hpulse : exec .checkPulseExpiry s = execCheckPulseExpiry s := rfl
  have hsent : exec .swOutboundFrameSent s = execSwOutboundFrameSent s := rfl
  refine ⟨fun n hn => ⟨_, ?_, rfl, fun h => ?_⟩, fun hnone => ?_, fun h => ⟨_, ?_, rfl, ?_⟩, fun h => ?_⟩
  · rw [hpulse, execCheckPulseExpiry, event_high hpin, hn]
  · have hlink : (s.elapse n).sw.link ≠ .resync := by
      rw [show (s.elapse n).sw.link = s.sw.link from rfl, h]; decide
    rw [State.settle_eq (by exact hpin)]
    simp [hlink]
  · rw [hpulse, execCheckPulseExpiry, event_high hpin, hnone]
  · rw [hsent, execSwOutboundFrameSent, event_high hpin, if_pos h]
  · rw [settle_sending]
    cases hq : s.sw.outq with
    | nil => rfl
    | cons f rest => cases rest <;> simp
  · rw [hsent, execSwOutboundFrameSent, event_high hpin, if_neg (by rw [h]; decide)]

end Sys2Proof.Machine
end


section
/-! PROOFS. The frames FINISH and GRADE and the four timers of a port. -/

namespace Sys2Proof.Machine

/-! ## The end of an awarded record -/

section
variable {P : Port} {before after : List AwardRecord} {a : AwardRecord}
  (huniq : (P.records.map (fun b => b.tag)).Nodup) (hsplit : P.awards = before ++ a :: after)
include huniq hsplit

theorem Port.awards_tags_nodup : (((before ++ a :: after).map (fun x => x.bid)).map (fun b => b.tag)).Nodup := by
  rw [Port.records, List.map_append, List.nodup_append, hsplit] at huniq
  obtain ⟨_, hawards, _⟩ := huniq
  exact hawards

theorem Port.award_tag_ne {x : AwardRecord} (hx : x ∈ before) : x.bid.tag ≠ a.bid.tag := by
  have hnodup := Port.awards_tags_nodup huniq hsplit
  rw [List.map_append, List.map_cons] at hnodup
  exact tag_ne_of_nodup hnodup x.bid (List.mem_map_of_mem hx)

theorem Port.award?_of_split : P.award? a.bid.tag = some a := by
  rw [Port.award?, hsplit]
  exact List.find?_eq_some_iff_append.mpr
    ⟨beq_self_eq_true _, before, after, rfl, fun x hx => by simp [Port.award_tag_ne huniq hsplit hx]⟩

theorem Port.removeAward_of_split : P.removeAward a.bid.tag = { P with awards := before ++ after } := by
  rw [Port.removeAward, hsplit,
    List.eraseP_append_right _ fun x hx => by simp [Port.award_tag_ne huniq hsplit hx],
    List.eraseP_cons_of_pos (by simp)]

end

/-- The removal of the record by position, and its refund to the row of its class (R86, R36). -/
theorem Port.finished_of_split {P : Port} {before after : List AwardRecord} {a : AwardRecord} (moved : Nat)
    (huniq : (P.records.map (fun b => b.tag)).Nodup) (hsplit : P.awards = before ++ a :: after) :
    P.finished a moved =
      if a.refundDue moved = 0 then { P with awards := before ++ after }
      else { P with awards := before ++ after }.setRow a.bid.cls
        ((P.row a.bid.cls).refund a.charge (a.refundDue moved)) := by
  rw [Port.finished, Port.removeAward_of_split huniq hsplit]
  by_cases hdue : a.refundDue moved = 0
  · rw [if_neg (by omega), if_pos hdue]
  · rw [if_pos (by omega), if_neg hdue]
    rfl

/-- A finish, its overlength fault first, changes its port, the log's reserved places and the pool in this order (R86). -/
theorem State.finishRecord_eq (s : State) (p : PortNo) (a : AwardRecord) (moved : Nat) :
    s.finishRecord p a moved =
      (((if a.bid.length < moved then s.reportFault (s.recordFault .overlengthFinish p a.bid) else s).setPort p
        ((s.port p).finished a moved)).freeReserved p).returnRecord a.bid := by
  have hports : (if a.bid.length < moved then s.reportFault (s.recordFault .overlengthFinish p a.bid) else s).port p
      = s.port p := State.port_congr (by split <;> simp) p
  rw [← hports]
  rfl

theorem State.freeReserved_setPort (s : State) (p : PortNo) (P : Port) :
    (s.setPort p P).freeReserved p =
      if P.mode = .rehearsal then { s.setPort p P with log := { s.log with reserved := s.log.reserved - 1 } }
      else s.setPort p P := by
  rw [State.freeReserved, State.port_setPort_same]
  rfl

/-! ## A tag that no awarded record carries -/

theorem Port.queuedRecord_of_mem {P : Port} {c : ClassNo} {b : BidRecord}
    (huniq : (P.records.map (fun b => b.tag)).Nodup) (hb : b ∈ (P.row c).queue) : P.queuedRecord b.tag = some b := by
  rw [Port.records, List.map_append, List.nodup_append] at huniq
  obtain ⟨hqueued, _⟩ := huniq
  obtain ⟨before, after, hsplit⟩ := List.append_of_mem (Port.mem_queued.mpr ⟨c, hb⟩)
  rw [hsplit] at hqueued
  rw [Port.queuedRecord, hsplit]
  exact find?_tag_of_nodup hqueued

theorem Port.queuedRecord_eq_none {P : Port} {tag : Tag} (h : ∀ b ∈ P.records, b.tag ≠ tag) :
    P.queuedRecord tag = none :=
  List.find?_eq_none.mpr fun b hb => by simp [h b (List.mem_append_left _ hb)]

theorem Port.award?_of_queued {P : Port} {c : ClassNo} {b : BidRecord}
    (huniq : (P.records.map (fun b => b.tag)).Nodup) (hb : b ∈ (P.row c).queue) : P.award? b.tag = none :=
  Port.award?_eq_none fun _ ha => (Port.tag_ne_of_queued_awarded huniq (Port.mem_queued.mpr ⟨c, hb⟩) ha).symm

theorem Port.award?_of_unused {P : Port} {tag : Tag} (h : ∀ b ∈ P.records, b.tag ≠ tag) : P.award? tag = none :=
  Port.award?_eq_none fun a ha => h a.bid (List.mem_append_right _ (List.mem_map_of_mem ha))

/-! ## FINISH -/

section
variable {f : FinishBody} {s : State}

theorem exec_finish (h : s.frameNext (.finish f)) :
    exec (.finish f) s = .next ((s.pastFrame (.finish f)).takeFinish f).settle :=
  event_takeFrame (handle := State.takeFinish f) h

theorem takeFinish_rehearsal (hmode : (s.port f.port).mode = .rehearsal) :
    s.takeFinish f = s.strayFinish f.port f.tag none :=
  if_pos hmode

theorem takeFinish_awarded {a : AwardRecord} (hmode : (s.port f.port).mode ≠ .rehearsal)
    (ha : (s.port f.port).award? f.tag = some a) :
    s.takeFinish f = (s.finishRecord f.port a f.moved.toNat).ladder f.port := by
  simp only [State.takeFinish, if_neg hmode, ha]

theorem takeFinish_stray (hmode : (s.port f.port).mode ≠ .rehearsal) (ha : (s.port f.port).award? f.tag = none) :
    s.takeFinish f = s.strayFinish f.port f.tag ((s.port f.port).queuedRecord f.tag) := by
  simp only [State.takeFinish, if_neg hmode, ha]

end

/-- Settles O35: by the place at which the tag stands. -/
theorem finishEndsARecordOrIsStray : Obligations.FinishEndsARecordOrIsStray := by
  intro f s hnext huniq
  have hport : (s.pastFrame (.finish f)).port f.port = s.port f.port := rfl
  refine ⟨fun hmode => ?_, fun hmode => ⟨fun before after a hsplit htag => ?_, fun c b hb htag => ?_, fun hunused => ?_⟩⟩
  · rw [exec_finish hnext, takeFinish_rehearsal (s := s.pastFrame (.finish f)) hmode]
    rfl
  · have haward : ((s.pastFrame (.finish f)).port f.port).award? f.tag = some a :=
      htag ▸ Port.award?_of_split (huniq f.port) hsplit
    have hfinished : ((s.port f.port).finished a f.moved.toNat).mode ≠ .rehearsal := by
      rwa [Port.finished_mode]
    rw [exec_finish hnext, takeFinish_awarded (s := s.pastFrame (.finish f)) hmode haward, State.finishRecord_eq, State.freeReserved_setPort, hport,
      if_neg hfinished, Port.finished_of_split _ (huniq f.port) hsplit, State.recordFault, htag]
    cases hcharge : a.charge <;> rfl
  · rw [exec_finish hnext, takeFinish_stray (s := s.pastFrame (.finish f)) hmode (htag ▸ Port.award?_of_queued (huniq f.port) hb), hport, ← htag,
      Port.queuedRecord_of_mem (huniq f.port) hb]
    rfl
  · rw [exec_finish hnext, takeFinish_stray (s := s.pastFrame (.finish f)) hmode (Port.award?_of_unused hunused), hport,
      Port.queuedRecord_eq_none hunused]
    rfl

/-! ## GRADE -/

/-- The state after the first effects of a GRADE: its port stands as `P` with the grade stored, and has joined the GRADE
notice (R108). -/
def State.gradeStored (s : State) (p : PortNo) (g : Grade) (P : Port) : State :=
  State.noticeCause
    ({ s with mg := { s.mg with notices := { s.mg.notices with
        gradePorts := s.mg.notices.gradePorts ||| portMask p } } }.setPort p { P with grade := g }) .grade

theorem State.gradeStored_eq (s : State) (p : PortNo) (g : Grade) :
    s.gradeStored p g (s.port p) = (s.mapPort p (fun P => { P with grade := g })).gradeCause p := rfl

/-- A second update of the port joins the first. -/
theorem State.gradeStored_mapPort (s : State) (p : PortNo) (g : Grade) (P : Port) (f : Port → Port) :
    (s.gradeStored p g P).mapPort p f = State.noticeCause
      ({ s with mg := { s.mg with notices := { s.mg.notices with
          gradePorts := s.mg.notices.gradePorts ||| portMask p } } }.setPort p (f { P with grade := g })) .grade := by
  rw [State.gradeStored, noticeCause_setPort, noticeCause_setPort, State.mapPort, State.port_setPort_same,
    State.setPort_setPort]

theorem State.gradeStored_port (s : State) (p : PortNo) (g : Grade) (P : Port) :
    (s.gradeStored p g P).port p = { P with grade := g } := by
  rw [State.gradeStored, noticeCause_setPort, State.port_setPort_same]

/-- The effects of Table 6.4 follow the storing of the grade. -/
theorem takeGrade_stored (s : State) (p : PortNo) (g : Grade) :
    s.takeGrade p g =
      if g ≠ .down then (s.gradeStored p g (s.port p)).gradeUp p (s.port p).grade g
      else if (s.port p).grade ≠ .down then (s.gradeStored p g (s.port p)).gradeFall p
      else s.gradeStored p g (s.port p) := rfl

theorem State.gradeUp_stored (s : State) (p : PortNo) (old g : Grade) (P : Port) :
    (s.gradeStored p g P).gradeUp p old g =
      let t := s.gradeStored p g { P.recomputeShares g with holdDownTimer := none, stranded := false }
      if old = .down then t.ladder p else t := by
  rw [State.gradeUp, State.gradeStored_mapPort]
  rfl

theorem State.gradeFall_stored (s : State) (p : PortNo) (g : Grade) (P : Port) :
    (s.gradeStored p g P).gradeFall p =
      if P.settings.holdDown * 100 = 0 then (s.gradeStored p g P).strand p
      else s.gradeStored p g { P with holdDownTimer := some (P.settings.holdDown * 100) } := by
  rw [State.gradeFall, State.gradeStored_port, State.gradeStored_mapPort]
  rfl

theorem exec_grade {p : PortNo} {g : Grade} {s : State} (h : s.frameNext (.grade p g)) :
    exec (.grade p g) s = .next ((s.pastFrame (.grade p g)).takeGrade p g).settle :=
  event_takeFrame (handle := State.takeGrade p g) h

/-- Settles O36: a row of Table 6.4 for each rise and fall. -/
theorem gradeFrameActs : Obligations.GradeFrameActs := by
  intro p g s hnext
  have hport : (s.pastFrame (.grade p g)).port p = s.port p := rfl
  rw [exec_grade hnext, takeGrade_stored, State.gradeUp_stored, State.gradeFall_stored, hport]
  refine ⟨fun hg hold => ?_, fun hg hold => ?_, fun hg hold => ?_, fun hg hold hn => ?_, fun hg hold hn => ?_⟩
  · rw [if_pos hg, if_neg hold]
    rfl
  · rw [if_pos hg, if_pos hold]
    rfl
  · rw [if_neg (not_not_intro hg), if_neg (not_not_intro hold)]
    rfl
  · rw [if_neg (not_not_intro hg), if_pos hold, if_neg (by omega)]
    rfl
  · rw [if_neg (not_not_intro hg), if_pos hold, if_pos (by omega)]
    rfl

/-! ## The timers -/

theorem Port.committed_settings (P : Port) : P.committed.settings = P.settings := by
  rw [Port.committed_frame]

theorem State.applyCommit_settings (s : State) (p : PortNo) :
    ((s.applyCommit p).port p).settings = (s.port p).settings := by
  by_cases h : (s.port p).commitStatus = .pending
  · rw [State.port_applyCommit_same h]
    dsimp only
    exact Port.committed_settings _
  · rw [State.applyCommit_of_not_pending h]

/-- Settles O38: the expiry in the order of R26. -/
theorem accrualExpiryInOrder : Obligations.AccrualExpiryInOrder := by
  intro p s hpin
  show execAccrualTimerExpiry p s = _
  rw [execAccrualTimerExpiry, event_high hpin, State.accrualExpiry]
  have hsettings := State.applyCommit_settings (s.elapse (s.port p).accrualTimer) p
  rw [State.port_elapse] at hsettings
  have hcommit : (s.elapse (s.port p).accrualTimer).applyCommit p =
      if (s.port p).commitStatus = .pending then (s.elapse (s.port p).accrualTimer).applyCommit p
      else s.elapse (s.port p).accrualTimer := by
    by_cases h : (s.port p).commitStatus = .pending
    · rw [if_pos h]
    · rw [if_neg h]
      refine State.applyCommit_of_not_pending ?_
      rw [State.port_elapse]
      exact h
  rw [← hcommit]
  generalize (s.elapse (s.port p).accrualTimer).applyCommit p = t at hsettings
  have hperiod : (t.port p).settings.period =
      (s.port p).settings.interval * (s.port p).settings.prescale.micros := by rw [hsettings]; rfl
  have hreload : (t.port p).accrue.reload = { (t.port p).accrue with
      loadedPeriod := (t.port p).settings.period, accrualTimer := (t.port p).settings.period } := rfl
  rw [State.mapPort, hreload, hperiod]
  cases hscale : (s.port p).settings.prescale <;> rfl

theorem Port.elapse_zero (P : Port) : P.elapse 0 = P := by
  simp [Port.elapse]

theorem State.elapse_zero (s : State) : s.elapse 0 = s := by
  have hport : Port.elapse 0 = id := funext Port.elapse_zero
  simp [State.elapse, hport]

/-- Settles O39: the run closes, the rest of the port and of the part stands. -/
theorem runTimerExpiryClosesTheRun : Obligations.RunTimerExpiryClosesTheRun := by
  refine fun p s hpin => ⟨fun x hx => ⟨(s.elapse x.timer).closeRun p, ?_, fun h0 => ?_, rfl, ?_, rfl⟩, fun hx => ?_⟩
  · show execRunTimerExpiry p s = _
    rw [execRunTimerExpiry, event_high hpin, hx]
  · rw [h0, State.elapse_zero]
    rfl
  · rw [State.closeRun, State.port_mapPort_same, State.port_elapse, Port.elapse, List.map_map]
    rfl
  · show execRunTimerExpiry p s = _
    rw [execRunTimerExpiry, event_high hpin, hx]

/-- How a lapse is told, the log entry and its notice written out (R90, R165). -/
theorem State.tellLapse_eq (s : State) (p : PortNo) (a : AwardRecord) :
    let logged := { s with log := { entries := s.log.entries ++ [logEntry .lapse p a.bid a.charge s.timeBase],
                                    reserved := s.log.reserved - 1 } }
    s.tellLapse p a = if (s.port p).mode = .rehearsal then
        (if s.log.entries = [] then logged.noticeCause .rehearsal else logged)
      else s.pushSwitch (.lapse p a.bid.tag) := by
  simp only [State.tellLapse, State.writeLog, State.noticeCause_eq, List.isEmpty_iff]
  split_ifs <;> rfl

/-- The award list of a port on which time has passed, at the place of one record. -/
theorem Port.elapse_split {P : Port} {before after : List AwardRecord} {a : AwardRecord}
    (h : P.awards = before ++ a :: after) (n : Nat) :
    (P.elapse n).awards = before.map (fun x => { x with timer := x.timer - n })
      ++ { a with timer := a.timer - n } :: after.map (fun x => { x with timer := x.timer - n }) := by
  rw [Port.elapse, h, List.map_append, List.map_cons]

theorem State.timeBase_tellLapse (s : State) (p : PortNo) (a : AwardRecord) :
    (s.tellLapse p a).timeBase = s.timeBase := by
  rw [State.tellLapse_eq]
  split_ifs <;> simp

/-- The lapse of a record from the port that its removal leaves (R90). -/
theorem State.lapseRecord_of_removed {s : State} {p : PortNo} {a : AwardRecord} {Q : Port}
    (h : (s.port p).removeAward a.bid.tag = Q) :
    s.lapseRecord p a = (((((s.setPort p Q).returnRecord a.bid).tellLapse p a).reportFault
      { kind := .finishLapse, time := s.timeBase, port := some p, cls := some a.bid.cls, source := some a.bid.source,
        tag := some a.bid.tag, address := none }).count p .lapses (some a.bid.cls) 1).ladder p := by
  have htime : (((s.setPort p Q).returnRecord a.bid).tellLapse p a).timeBase = s.timeBase := by
    rw [State.timeBase_tellLapse, State.returnRecord_timeBase, State.setPort_timeBase]
  rw [State.lapseRecord, State.mapPort, h, State.recordFault, htime]

/-- How the lapse is told once the record has been returned, by the mode of its port. -/
theorem State.tellLapse_returned (s : State) (p : PortNo) (Q : Port) (a : AwardRecord) :
    let t := (s.setPort p Q).returnRecord a.bid
    let logged := { t with log := { entries := s.log.entries ++ [logEntry .lapse p a.bid a.charge s.timeBase],
                                    reserved := s.log.reserved - 1 } }
    t.tellLapse p a = if Q.mode = .rehearsal then
        (if s.log.entries = [] then logged.noticeCause .rehearsal else logged)
      else t.pushSwitch (.lapse p a.bid.tag) := by
  have hport : ((s.setPort p Q).returnRecord a.bid).port p = Q := by
    rw [State.port_congr (State.returnRecord_ports _ _), State.port_setPort_same]
  have hlog : ((s.setPort p Q).returnRecord a.bid).log = s.log := by
    rw [State.returnRecord_log, State.setPort_log]
  have hentry : logEntry .lapse p a.bid a.charge ((s.setPort p Q).returnRecord a.bid).timeBase
      = logEntry .lapse p a.bid a.charge s.timeBase := by
    rw [State.returnRecord_timeBase, State.setPort_timeBase]
  intro t logged
  rw [State.tellLapse_eq, hport, hlog, hentry]

/-- Settles O40: the record at its place in the award list, which the passage of time keeps. -/
theorem deadlineExpiryLapsesTheRecord : Obligations.DeadlineExpiryLapsesTheRecord := by
  refine fun p tag s hpin huniq => ⟨fun before after a hsplit htag => ?_, fun hunused => ?_⟩
  · subst htag
    show execDeadlineExpiry p a.bid.tag s = _
    rw [execDeadlineExpiry, event_high hpin, Port.award?_of_split (huniq p) hsplit]
    have hrecords : (((s.elapse a.timer).port p).records.map (fun b => b.tag)).Nodup := by
      rw [State.port_elapse, Port.records_elapse]
      exact huniq p
    have hawards := Port.elapse_split hsplit a.timer
    rw [← State.port_elapse] at hawards
    have hremoved := Port.removeAward_of_split hrecords hawards
    have hmode : ((s.elapse a.timer).port p).mode = (s.port p).mode := by
      rw [State.port_elapse]
      rfl
    dsimp only at hremoved ⊢
    rw [State.lapseRecord_of_removed hremoved, State.tellLapse_returned, hmode, List.map_append]
    rfl
  · show execDeadlineExpiry p tag s = _
    rw [execDeadlineExpiry, event_high hpin, Port.award?_eq_none hunused]

/-- Settles O41: the effects of R112 in order. -/
theorem holdDownExpiryStrandsThePort : Obligations.HoldDownExpiryStrandsThePort := by
  refine fun p s hpin => ⟨fun n hn => ?_, fun hn => ?_⟩
  · show execHoldDownExpiry p s = _
    rw [execHoldDownExpiry, event_high hpin, hn]
    dsimp only
    rw [State.strand, State.mapPort_mapPort, State.plainFault]
    have htime (P : Port) : ((((s.elapse n).setPort p P).declineQueues p .portDown).closeRun p).timeBase
        = (s.elapse n).timeBase := by
      rw [State.closeRun, State.mapPort_timeBase, State.declineQueues_timeBase]
      rfl
    rw [State.mapPort, htime]
    rfl
  · show execHoldDownExpiry p s = _
    rw [execHoldDownExpiry, event_high hpin, hn]

end Sys2Proof.Machine
end


section
/-! PROOFS. The management line: characters and frames of the host, faulty frames, and the frames sent. -/

namespace Sys2Proof.Machine

open Sys2Proof.Wire (Verdict verdict isComplete kindOf requestFrame requestParts)

/-! ## The frame in assembly -/

theorem completeAssembly_of_complete {s : State} {a : Assembly} (h : s.mg.assembly = some a)
    (hcomplete : isComplete a.chars = true) :
    s.completeAssembly =
      State.joinInbound { s with mg := { s.mg with assembly := none } } { chars := a.chars, abandoned := false } := by
  simp only [State.completeAssembly, h, hcomplete, if_true]

theorem completeAssembly_of_none {s : State} (h : s.mg.assembly = none) : s.completeAssembly = s :=
  completeAssembly_of_incomplete fun a ha => by rw [h] at ha; cases ha

theorem State.joinInbound_assembly (s : State) (f : RequestFrame) : (s.joinInbound f).mg.assembly = s.mg.assembly := by
  unfold State.joinInbound
  split <;> rfl

theorem State.joinInbound_lineDivider (s : State) (f : RequestFrame) :
    (s.joinInbound f).mg.lineDivider = s.mg.lineDivider := by
  unfold State.joinInbound
  split <;> rfl

theorem State.completeAssembly_idem (s : State) : s.completeAssembly.completeAssembly = s.completeAssembly := by
  cases ha : s.mg.assembly with
  | none => rw [completeAssembly_of_none ha, completeAssembly_of_none ha]
  | some a =>
    cases hcomplete : isComplete a.chars with
    | true =>
      rw [completeAssembly_of_complete ha hcomplete]
      exact completeAssembly_of_none (State.joinInbound_assembly _ _)
    | false =>
      have hsame : s.completeAssembly = s := completeAssembly_of_incomplete fun b hb => by
        rw [ha, Option.some.injEq] at hb
        exact hb ▸ hcomplete
      rw [hsame, hsame]

/-- The frame in assembly is `x`. -/
def State.assembling (s : State) (x : Option Assembly) : State := { s with mg := { s.mg with assembly := x } }

theorem State.assembling_self {s : State} {x : Option Assembly} (h : s.mg.assembly = x) : s.assembling x = s := by
  subst h
  rfl

theorem receiveCharacter_of_none {s : State} (h : s.mg.assembly = none) (c : Byte) :
    s.receiveCharacter c =
      s.assembling (if c = Wire.startMarker then some { chars := [], gap := s.mg.gapTime } else none) := by
  simp only [State.receiveCharacter, completeAssembly_of_none h, h]
  split
  · rfl
  · exact (State.assembling_self h).symm

theorem receiveCharacter_of_incomplete {s : State} {a : Assembly} (h : s.mg.assembly = some a)
    (hincomplete : isComplete a.chars = false) (c : Byte) :
    s.receiveCharacter c = s.assembling (some { chars := a.chars ++ [c], gap := s.mg.gapTime }) := by
  have hsame : s.completeAssembly = s := completeAssembly_of_incomplete fun b hb => by
    rw [h, Option.some.injEq] at hb
    exact hb ▸ hincomplete
  simp only [State.receiveCharacter, hsame, h]
  rfl

/-- A complete frame joins before the next character is seen (R135). -/
theorem receiveCharacter_of_complete {s : State} {a : Assembly} (h : s.mg.assembly = some a)
    (hcomplete : isComplete a.chars = true) (c : Byte) :
    s.receiveCharacter c = State.assembling
      ((s.assembling none).joinInbound { chars := a.chars, abandoned := false })
      (if c = Wire.startMarker then some { chars := [], gap := s.mg.gapTime } else none) := by
  have hjoin := completeAssembly_of_complete h hcomplete
  have hnone : s.completeAssembly.mg.assembly = none := by
    rw [hjoin, State.joinInbound_assembly]
  have hgap : s.completeAssembly.mg.gapTime = s.mg.gapTime := by
    rw [MgUnit.gapTime, hjoin, State.joinInbound_lineDivider]
    rfl
  have hagain : s.receiveCharacter c = s.completeAssembly.receiveCharacter c := by
    rw [State.receiveCharacter, State.receiveCharacter, State.completeAssembly_idem]
  rw [hagain, receiveCharacter_of_none hnone, hgap, hjoin]
  rfl

/-! ## The characters of a whole frame -/

theorem isComplete_append {l : List Byte} (h : isComplete l = true) (m : List Byte) : isComplete (l ++ m) = true := by
  match l, h with
  | _ :: _ :: rest, h =>
    rw [isComplete, decide_eq_true_iff] at h
    simp only [List.cons_append, isComplete, decide_eq_true_iff, List.length_cons, List.length_append] at h ⊢
    omega

theorem isComplete_of_append {l m : List Byte} (h : isComplete (l ++ m) = false) : isComplete l = false := by
  by_contra hcomplete
  rw [isComplete_append (Bool.eq_true_of_not_eq_false hcomplete)] at h
  cases h

/-- Characters join the frame in assembly while none before the last completes it (R135). -/
theorem receiveCharacters_assembling (s : State) (cs : List Byte) {l : List Byte}
    (h : isComplete (l ++ cs).dropLast = false) :
    (s.assembling (some { chars := l, gap := s.mg.gapTime })).receiveCharacters cs
      = s.assembling (some { chars := l ++ cs, gap := s.mg.gapTime }) := by
  induction cs generalizing l with
  | nil => rw [List.append_nil]; rfl
  | cons c cs ih =>
    have happend : l ++ c :: cs = (l ++ [c]) ++ cs := by simp
    have hincomplete : isComplete l = false := by
      rw [List.dropLast_append_of_ne_nil (List.cons_ne_nil c cs)] at h
      exact isComplete_of_append h
    rw [happend] at h ⊢
    refine Eq.trans ?_ (ih h)
    rw [State.receiveCharacters, List.foldl_cons,
      receiveCharacter_of_incomplete (a := { chars := l, gap := s.mg.gapTime }) rfl hincomplete]
    rfl

theorem receiveCharacters_whole {s : State} {chars : List Byte} (hnone : s.mg.assembly = none)
    (hproper : isComplete chars.dropLast = false) :
    s.receiveCharacters (Wire.startMarker :: chars)
      = s.assembling (some { chars := chars, gap := s.mg.gapTime }) := by
  rw [State.receiveCharacters, List.foldl_cons, receiveCharacter_of_none hnone, if_pos rfl]
  exact receiveCharacters_assembling s chars hproper

/-- Settles O42: by what stands in assembly. -/
theorem charactersFormFrames : Obligations.CharactersFormFrames := by
  intro s hpin
  have hchar (c : Byte) : exec (.mgCharacterReceived c) s = .next (s.receiveCharacter c).settle :=
    event_high (f := fun s => s.receiveCharacter c) hpin
  refine ⟨fun c hnone hc => ?_, fun hnone => ?_, fun c a ha hincomplete => ?_, fun c a ha hcomplete => ?_,
    fun a ha hcomplete => ?_, fun chars hnone hcomplete hproper => ?_, fun a ha hincomplete => ?_, fun hnone => ?_⟩
  · have hmarker : c ≠ Wire.startMarker := hc
    rw [hchar, receiveCharacter_of_none hnone, if_neg hmarker, State.assembling_self hnone]
  · rw [hchar, receiveCharacter_of_none hnone]
    rfl
  · rw [hchar, receiveCharacter_of_incomplete ha hincomplete]
    rfl
  · rw [hchar, receiveCharacter_of_complete ha hcomplete]
    rfl
  · have hassembled : s.assembled a.chars = true := by simp [State.assembled, ha, hcomplete]
    show execRequestFrameComplete a.chars s = _
    rw [execRequestFrameComplete, event_high hpin, if_pos hassembled, completeAssembly_of_complete ha hcomplete]
    rfl
  · have hassembled : ¬ s.assembled chars = true := by simp [State.assembled, hnone]
    show execRequestFrameComplete chars s = _
    rw [execRequestFrameComplete, event_high hpin, if_neg hassembled, receiveCharacters_whole hnone hproper,
      completeAssembly_of_complete (a := { chars := chars, gap := s.mg.gapTime }) rfl hcomplete]
    have hself : State.assembling (s.assembling (some { chars := chars, gap := s.mg.gapTime })) none = s :=
      State.assembling_self hnone
    show Host.Outcome.next (State.joinInbound (State.assembling (s.assembling _) none) _).settle = _
    rw [hself]
    rfl
  · show execFrameAbandoned s = _
    rw [execFrameAbandoned, event_high hpin, ha]
    dsimp only
    rw [hincomplete]
    rfl
  · show execFrameAbandoned s = _
    rw [execFrameAbandoned, event_high hpin]
    cases ha : s.mg.assembly with
    | none => rfl
    | some a =>
      dsimp only
      rw [hnone a ha, if_pos rfl]

/-! ## Frames that are served -/

/-- Every request is served by the owning block of its command (R137). -/
theorem exec_request {c : Instr} (h : requestParts c ≠ none) :
    ∃ act : State → Served, ∀ s, exec c s = event (State.serveRequest c act) s := by
  cases c with
  | identify | lineRate | status | noticeEnable | noticeAck | reset | portSet | portRead | portMode
  | portFlush | sourceSet | sourceRead | contractStage | contractRead | commit | abortCommit | lock
  | queueRead | poolSet | poolRead | faultRead | faultClear | faultMode | counterSelect
  | counterRead | testBid | testFinish | rehearsalRead => exact ⟨_, fun _ => rfl⟩
  | _ => exact absurd rfl h

/-- The command `c` serves the frame `f`, whose examination gives `v`: a request, a bad frame, or one of unknown kind. -/
def Serves (c : Instr) (v : Verdict) (f : RequestFrame) : Prop :=
  (requestParts c ≠ none ∧ v = .request c ∧ f = requestFrame c) ∨ (c = .badFrameRequest f ∧ v = .badFrame)
    ∨ (∃ chars, c = .unknownKindRequest chars ∧ v = .unknownKind ∧ f = { chars := chars, abandoned := false })

theorem Serves.exec_eq {c : Instr} {v : Verdict} {f : RequestFrame} (h : Serves c v f) :
    ∃ act : State → Served, ∀ s, exec c s = event (State.serve (fun x => x == v) f act) s := by
  rcases h with ⟨hparts, rfl, rfl⟩ | ⟨rfl, rfl⟩ | ⟨chars, rfl, rfl, rfl⟩
  · exact exec_request hparts
  · exact ⟨_, fun _ => rfl⟩
  · exact ⟨_, fun _ => rfl⟩

/-- A complete frame in assembly joins before the command's own frame is offered (entry 6). -/
theorem serve_completeAssembly (want : Verdict → Bool) (f : RequestFrame) (act : State → Served) (s : State) :
    s.completeAssembly.serve want f act = s.serve want f act := by
  unfold State.serve State.offerRequest
  rw [State.completeAssembly_idem]

theorem servesNow_eq_false {s : State} {want : Verdict → Bool} (h : s.mg.mayServe = false) :
    s.servesNow want = false := by
  rw [State.servesNow, h, Bool.false_and]

theorem servesNow_of_head {s : State} {v : Verdict} (h : ∀ g, s.mg.inbound.head? = some g → verdict g ≠ v) :
    s.servesNow (fun x => x == v) = false := by
  unfold State.servesNow
  cases hhead : s.mg.inbound.head? with
  | none => simp
  | some g => simp [h g hhead]

theorem State.joinInbound_mayServe (s : State) (f : RequestFrame) :
    (s.joinInbound f).mg.mayServe = s.mg.mayServe := by
  unfold State.joinInbound
  split <;> rfl

/-- Behind a frame that joined or was dropped, the oldest frame is as R137 reads it: that of the buffer with it. -/
theorem State.joinInbound_head (s : State) (f : RequestFrame) :
    (s.joinInbound f).mg.inbound.head? = (s.mg.inbound ++ [f]).head? := by
  unfold State.joinInbound
  split
  · rfl
  · rename_i hfull
    cases hin : s.mg.inbound with
    | nil => rw [hin] at hfull; exact absurd (by decide) hfull
    | cons g rest => simp

theorem requestWaits_servesNow {s : State} {v : Verdict} {f : RequestFrame} (h : s.requestWaits v f) :
    s.servesNow (fun x => x == v) = false ∧ (s.joinInbound f).servesNow (fun x => x == v) = false := by
  have hmay (hnot : s.mg.mayServe = false) :
      s.servesNow (fun x => x == v) = false ∧ (s.joinInbound f).servesNow (fun x => x == v) = false :=
    ⟨servesNow_eq_false hnot, servesNow_eq_false ((s.joinInbound_mayServe f).trans hnot)⟩
  rcases h with hreplies | hstage | ⟨g, hhead, hverdict⟩
  · exact hmay (by simp [MgUnit.mayServe, Nat.not_lt.mpr hreplies])
  · exact hmay (by simp [MgUnit.mayServe, hstage])
  · refine ⟨servesNow_of_head fun x hx => ?_, servesNow_of_head fun x hx => ?_⟩
    · rw [List.head?_append, hx, Option.some_or, Option.some.injEq] at hhead
      exact hhead ▸ hverdict
    · rw [State.joinInbound_head, hhead, Option.some.injEq] at hx
      exact hx ▸ hverdict

theorem serve_of_waits {s : State} {v : Verdict} {f : RequestFrame} (act : State → Served) (hwaits : s.requestWaits v f)
    (hassembly : ∀ a, s.mg.assembly = some a → isComplete a.chars = false) :
    s.serve (fun x => x == v) f act = s.joinInbound f := by
  obtain ⟨hnow, hthen⟩ := requestWaits_servesNow hwaits
  simp [State.serve, State.offerRequest, completeAssembly_of_incomplete hassembly, hnow, hthen]

theorem State.joinInbound_pins (s : State) (f : RequestFrame) : (s.joinInbound f).pins = s.pins := by
  unfold State.joinInbound
  split <;> rfl

/-- Settles O43: the waiting frame, the frame in assembly, and the two answers. -/
theorem faultyFramesAreAnsweredAndRequestsWait : Obligations.FaultyFramesAreAnsweredAndRequestsWait := by
  refine fun s => ⟨fun c v f hserves hpin hassembly hwaits => ?_, fun c v f a hserves hpin ha hcomplete => ?_,
    fun f hverdict hnext => ?_, fun chars hverdict hnext => ?_⟩
  · obtain ⟨act, hexec⟩ := Serves.exec_eq hserves
    rw [hexec, event_high hpin, serve_of_waits act hwaits hassembly]
    rfl
  · obtain ⟨act, hexec⟩ := Serves.exec_eq hserves
    have hjoin := completeAssembly_of_complete ha hcomplete
    have hjoined : exec c s.completeAssembly = exec c s := by
      rw [hexec, hexec, event_high hpin, event_high (by rw [hjoin, State.joinInbound_pins]; exact hpin),
        serve_completeAssembly]
    rw [hjoin] at hjoined
    exact hjoined.symm
  · obtain ⟨hpin, _⟩ := id hnext
    show execBadFrameRequest f s = _
    rw [execBadFrameRequest, event_high hpin, serve_of_next (want := fun v => v == .badFrame) hnext (fun _ => rfl) hverdict]
    rfl
  · obtain ⟨hpin, _⟩ := id hnext
    show execUnknownKindRequest chars s = _
    rw [execUnknownKindRequest, event_high hpin, serve_of_next (want := fun v => v == .unknownKind) hnext (fun _ => rfl) hverdict]
    rfl

/-! ## Frames to the host -/

/-- What the end of a frame to the host brings about (R134, R147). -/
def MgOut.onSent : MgOut → OnSent
  | .reply r => r.onSent
  | .notice _ => .nothing

theorem frameSent_of_sending {s : State} {x : MgOut} {rest : List MgOut} (hsending : s.mg.sending = true)
    (hq : s.mg.outq = x :: rest) :
    s.frameSent = State.replySent { s with mg := { s.mg with outq := rest, sending := false } } x.onSent := by
  simp only [State.frameSent, if_pos hsending, hq]
  cases x <;> rfl

theorem exec_mgFrameSent {s : State} (hpin : s.pins.rstN = true) : exec .mgFrameSent s = .next s.frameSent.settle :=
  event_high (f := State.frameSent) hpin

theorem settle_mg (s : State) : s.settle.mg = s.beginManagement.mg := by
  simp [State.settle]

/-- Settles O44: by the kind of the frame and by what the end of a reply brings about. -/
theorem managementFrameSent : Obligations.ManagementFrameSent := by
  refine fun s hpin => ⟨fun hsending => ⟨fun rest n hq => ?_, fun rest r hq hr => ?_, fun rest r d hq hr => ?_,
    fun rest r hq hr => ?_⟩, fun hidle => ?_⟩
  · rw [exec_mgFrameSent hpin, frameSent_of_sending hsending hq]
    rfl
  · rw [exec_mgFrameSent hpin, frameSent_of_sending hsending hq, MgOut.onSent, hr]
    rfl
  · rw [exec_mgFrameSent hpin, frameSent_of_sending hsending hq, MgOut.onSent, hr]
    rfl
  · have hbusy := State.beginManagement_of_busy (s := { s with mg := { s.mg with
      outq := rest, sending := false, resetStage := .replySent } }) (.inr rfl)
    have hsent : s.frameSent = { s with mg := { s.mg with
        outq := rest, sending := false, resetStage := .replySent } } := by
      rw [frameSent_of_sending hsending hq, MgOut.onSent, hr]
      rfl
    refine ⟨_, exec_mgFrameSent hpin, congrArg State.settle hsent, ?_⟩
    rw [hsent, settle_mg, hbusy]
    exact ⟨rfl, rfl⟩
  · rw [exec_mgFrameSent hpin, State.frameSent, if_neg (by rw [hidle]; decide)]

end Sys2Proof.Machine
end


section
/-! PROOFS. The requests that read, those of the management link, LOCK, and those on the fault record and the counters. -/

namespace Sys2Proof.Machine

open Sys2Proof.Wire (bytes2 bytes4)

/-! ## The counts of a POOL-READ -/

theorem Port.active_toList (P : Port) : P.active.toList = ascending.map P.row := by
  refine List.ext_getElem (by simp [ascending]) fun i hi _ => ?_
  have hlt : i < 16 := by simpa using hi
  have hget : ∀ i (hi : i < 16), ascending[i]'(by simpa [ascending] using hi) = ⟨i, hi⟩ := by decide
  rw [List.getElem_map, hget i hlt]
  simp [Port.row]

theorem Port.queuedCount_eq (P : Port) : P.queuedCount = P.queued.length := by
  rw [Port.queuedCount, Port.active_toList, List.map_map, Port.queued, List.length_flatMap]
  rfl

theorem State.queuedCount_eq (s : State) : s.queuedCount = (s.ports.toList.map (fun P => P.queued.length)).sum := by
  rw [State.queuedCount, funext Port.queuedCount_eq]

/-- The records of the part are those of the row queues and those of the award lists. -/
theorem State.length_records (s : State) : s.records.length =
    (s.ports.toList.map (fun P => P.queued.length)).sum + (s.ports.toList.map (fun P => P.awards.length)).sum := by
  rw [State.records, List.length_flatMap, ← List.sum_map_add]
  simp [Port.records]

/-! ## The requests that read -/

theorem serveContractRead_undefined {pb cb set : Byte} {p : PortNo} {c : ClassNo} {s : State} (hp : pb.toNat = p.val)
    (hc : cb.toNat = c.val) (h0 : set ≠ 0) (h1 : set ≠ 1) :
    serveContractRead pb cb set s = { st := s, result := .inconsistent, body := zeros 39 } := by
  rw [serveContractRead, index16_eq_some hp, index16_eq_some hc]
  simp only [if_neg h0, if_neg h1]

theorem serveContractRead_notAllowed {pb cb : Byte} (set : Byte) (s : State) (h : 16 ≤ pb.toNat ∨ 16 ≤ cb.toNat) :
    serveContractRead pb cb set s = { st := s, result := .notAllowed, body := zeros 39 } := by
  rcases h with hp | hc
  · simp only [serveContractRead, index16_eq_none hp]
  · rw [serveContractRead, index16_eq_none hc]
    cases index16 pb <;> rfl

theorem serveQueueRead_notAllowed {pb cb : Byte} (s : State) (h : 16 ≤ pb.toNat ∨ 16 ≤ cb.toNat) :
    serveQueueRead pb cb s = { st := s, result := .notAllowed, body := zeros 4 } := by
  rcases h with hp | hc
  · simp only [serveQueueRead, index16_eq_none hp]
  · rw [serveQueueRead, index16_eq_none hc]
    cases index16 pb <;> rfl

theorem serveQueueRead_ok {pb cb : Byte} {p : PortNo} {c : ClassNo} (s : State) (hp : pb.toNat = p.val)
    (hc : cb.toNat = c.val) :
    serveQueueRead pb cb s = { st := s, result := .ok,
                               body := [pb, cb, byte1 ((s.port p).row c).queue.length,
                                 byte1 (min 32 ((s.port p).row c).queue.length)]
                                   ++ (((s.port p).row c).queue.take 32).flatMap BidRecord.bytes } := by
  rw [serveQueueRead, index16_eq_some hp, index16_eq_some hc]
  dsimp only
  rw [List.length_take]

theorem serveStatus_body (s : State) : (serveStatus s).body = noticeByte s.mg.notices.pending ::
    (bytes2 s.mg.notices.gradePorts ++ bytes2 s.mg.notices.strandPorts ++ [noticeByte s.mg.enables,
      flag (decide (s.mg.notices.pending &&& s.mg.enables ≠ 0)), s.sw.link.code, flag s.faults.held.isSome]
      ++ bytes4 s.timeBase) := by
  rw [← State.attnLevel_eq]
  rfl

/-- Settles O45: every read gives its body and the state as it stands. -/
theorem readsAnswerAndChangeNothing : Obligations.ReadsAnswerAndChangeNothing := by
  intro s answers
  refine ⟨fun h => ?identify, fun h => ?status, fun h => ?pool, fun h => ?counted, fun h => ?fault,
    fun pb hpb h => ?portRange, fun pb p hp h => ?port, fun eb heb h => ?sourceRange, fun eb e he h => ?source,
    fun pb cb hrange => ⟨fun h => ?queueRange, fun set h => ?contractRange⟩,
    fun pb cb p c hp hc => ⟨fun h => ?queue, fun h => ?active, fun h => ?staged, fun set h0 h1 h => ?undefined⟩⟩
  case identify => exact exec_served rfl h rfl (v := serveIdentify s.taken) rfl rfl
  case status =>
    rw [exec_served rfl h rfl (v := serveStatus s.taken) rfl rfl, serveStatus_body]
    rfl
  case pool =>
    rw [exec_served rfl h rfl (v := servePoolRead s.taken) rfl rfl, ← State.queuedCount_eq]
    rfl
  case counted =>
    obtain ⟨htotal, _⟩ := h
    rw [State.length_records] at htotal
    omega
  case fault => exact exec_served rfl h rfl (v := serveFaultRead s.taken) rfl rfl
  case portRange =>
    exact exec_served rfl h rfl (v := { st := s.taken, result := .notAllowed, body := zeros 15 })
      (by rw [servePortRead, index16_eq_none hpb]) rfl
  case port =>
    rw [exec_served rfl h rfl (v := servePortRead pb s.taken) rfl (by rw [servePortRead, index16_eq_some hp]),
      servePortRead, index16_eq_some hp]
    rfl
  case sourceRange =>
    exact exec_served rfl h rfl (v := { st := s.taken, result := .notAllowed, body := zeros 12 })
      (by rw [serveSourceRead, index64_eq_none heb]) rfl
  case source =>
    exact exec_served rfl h rfl (v := { st := s.taken, result := .ok, body := eb :: (s.source e).bytes })
      (by rw [serveSourceRead, index64_eq_some he]; rfl) rfl
  case queueRange => exact exec_served rfl h rfl (serveQueueRead_notAllowed s.taken hrange) rfl
  case contractRange => exact exec_served rfl h rfl (serveContractRead_notAllowed set s.taken hrange) rfl
  case queue => exact exec_served rfl h rfl (serveQueueRead_ok s.taken hp hc) rfl
  case active =>
    rw [exec_served rfl h rfl (v := serveContractRead pb cb 0 s.taken) rfl
      (by rw [serveContractRead, index16_eq_some hp, index16_eq_some hc]; rfl), serveContractRead,
      index16_eq_some hp, index16_eq_some hc]
    rfl
  case staged =>
    rw [exec_served rfl h rfl (v := serveContractRead pb cb 1 s.taken) rfl
      (by rw [serveContractRead, index16_eq_some hp, index16_eq_some hc]; rfl), serveContractRead,
      index16_eq_some hp, index16_eq_some hc]
    rfl
  case undefined => exact exec_served rfl h rfl (serveContractRead_undefined hp hc h0 h1) rfl

/-! ## The requests on the management link -/

theorem clampedDivider_eq_self (d : BitVec 16) : clampedDivider d = d ↔ ¬ d.toNat < 2 := by
  unfold clampedDivider
  split
  · simp only [not_true_eq_false, iff_false, *]
    bv_omega
  · simp [*]

theorem serveLineRate_eq (d : BitVec 16) (s : State) :
    serveLineRate d s = { st := { s with mg := { s.mg with divider := clampedDivider d } }
                          result := if d.toNat < 2 then .clamped else .ok
                          body := bytes2 (clampedDivider d)
                          onSent := .takeDivider (clampedDivider d) } := by
  have hresult : (if clampedDivider d = d then ReplyResult.ok else .clamped) = if d.toNat < 2 then .clamped else .ok := by
    rw [if_congr (clampedDivider_eq_self d) rfl rfl, ite_not]
  rw [serveLineRate, hresult]

theorem noticeSet_ne_zero (x : NoticeSet) : x ≠ 0 ↔ ∃ j < 6, x.getLsbD j = true := by
  constructor
  · intro hne
    by_contra hnone
    push Not at hnone
    exact hne (BitVec.eq_of_getLsbD_eq fun j hj => by simpa using hnone j hj)
  · rintro ⟨j, _, hbit⟩ rfl
    simp at hbit

/-- A newly enabled pending kind calls for a NOTICE (R144). -/
theorem serveNoticeEnable_calls (k : Byte) (s : State) :
    (serveNoticeEnable k s).callsNotice = true ↔
      ∃ j < 6, (noticeSetOf k).getLsbD j = true ∧ s.mg.enables.getLsbD j = false
        ∧ s.mg.notices.pending.getLsbD j = true := by
  have hcalls : (serveNoticeEnable k s).callsNotice = true ↔
      noticeSetOf k &&& ~~~s.mg.enables &&& s.mg.notices.pending ≠ 0 := bne_iff_ne
  rw [hcalls, noticeSet_ne_zero]
  refine exists_congr fun j => and_congr_right fun hj => ?_
  simp [hj, and_assoc]

theorem noticeSetOf_mask (k : Byte) (j : NoticeKind) : (noticeSetOf k &&& j.mask != 0) = k.getLsbD j.index := by
  rw [NoticeKind.and_mask_ne_zero, noticeSetOf, BitVec.getLsbD_extractLsb']
  cases j <;> simp [NoticeKind.index]

theorem NoticeRecord.acknowledge_eq (n : NoticeRecord) (k : Byte) :
    n.acknowledge (noticeSetOf k) = { pending := n.pending &&& ~~~ k.extractLsb' 0 6
                                      gradePorts := if k.getLsbD 2 then 0 else n.gradePorts
                                      strandPorts := if k.getLsbD 4 then 0 else n.strandPorts } := by
  rw [NoticeRecord.acknowledge, noticeSetOf_mask, noticeSetOf_mask]
  rfl

theorem settle_resetStage (s : State) : s.settle.mg.resetStage = s.mg.resetStage := by
  rw [settle_mg, State.beginManagement_eq]

/-- Settles O46: each request by its block's state and reply. -/
theorem linkRequestsAct : Obligations.LinkRequestsAct := by
  intro s u withMg
  refine ⟨fun d h => ?_, fun k h => ?_, fun k h => ?_, fun h => ?_⟩
  · exact exec_served rfl h rfl (serveLineRate_eq d s.taken) rfl
  · have hexec : exec (.noticeEnable k) s = _ := event_serveRequest h rfl
    intro en v called
    have hcalls := serveNoticeEnable_calls k s.taken
    refine ⟨fun hcalled => ?_, fun hnot => ?_⟩
    · rw [hexec, State.replyWith, if_pos (hcalls.mpr hcalled)]
      rfl
    · rw [hexec, State.replyWith, if_neg fun hcalled => hnot (hcalls.mp hcalled)]
      rfl
  · have hacknowledged := NoticeRecord.acknowledge_eq s.mg.notices k
    intro n
    have hn : n = s.mg.notices.acknowledge (noticeSetOf k) := hacknowledged.symm
    rw [hn]
    exact exec_served rfl h rfl (v := serveNoticeAck k s.taken) rfl rfl
  · have hexec := exec_served rfl h rfl (v := serveReset s.taken) rfl rfl
    refine ⟨_, hexec, rfl, ?_⟩
    rw [MgUnit.mayServe, settle_resetStage]
    exact Bool.and_false _

/-! ## LOCK -/

section
variable {pb cb : Byte} {p : PortNo} {c : ClassNo} {s : State}

theorem serveLock_range (h : 16 ≤ pb.toNat ∨ 16 ≤ cb.toNat) :
    serveLock pb cb s = { st := s, result := .notAllowed, body := zeros 5 } := by
  rcases h with hp | hc
  · simp only [serveLock, index16_eq_none hp]
  · rw [serveLock, index16_eq_none hc]
    cases index16 pb <;> rfl

/-- LOCK on a cell, by the steps of R21 after the range check. -/
theorem serveLock_cell (hp : pb.toNat = p.val) (hc : cb.toNat = c.val) :
    serveLock pb cb s =
      let x := ((s.port p).row c).contract
      if (s.port p).commitStatus = .pending then lockReply pb cb p c .busy s
      else if !x.valid || !x.isProtected then lockReply pb cb p c .notAllowed s
      else lockReply pb cb p c .ok (s.mapPort p (fun P => P.setLock c { locked := true, floor := x.floorShare })) := by
  simp only [serveLock, index16_eq_some hp, index16_eq_some hc]

theorem lockReply_set (r : ReplyResult) (l : LockCell) :
    lockReply pb cb p c r (s.mapPort p (fun P => P.setLock c l)) =
      { st := s.setPort p ((s.port p).setLock c l), result := r, body := pb :: cb :: l.bytes } := by
  rw [lockReply, State.port_mapPort_same, Port.lockCell_setLock, if_pos rfl]
  rfl

end

/-- Settles O53: the steps of R21. -/
theorem lockPinsTheFloor : Obligations.LockPinsTheFloor := by
  intro pb cb s h replies
  refine ⟨fun hrange => exec_served rfl h rfl (serveLock_range hrange) rfl, fun p c hp hc => ?_⟩
  have hserve := serveLock_cell (s := s.taken) hp hc
  have hport : s.taken.port p = s.port p := rfl
  rw [hport] at hserve
  refine ⟨fun hpending => ?_, fun hpending hopen => ?_, fun hpending hvalid hprotected => ?_⟩
  · refine exec_served (v := lockReply pb cb p c .busy s.taken) rfl h rfl ?_ rfl
    rw [hserve]
    exact if_pos hpending
  · refine exec_served (v := lockReply pb cb p c .notAllowed s.taken) rfl h rfl ?_ rfl
    rw [hserve]
    simp only [if_neg hpending]
    exact if_pos (by simpa using hopen)
  · refine exec_served (v := { st := s.taken.setPort p _, result := .ok, body := _ }) rfl h rfl (hserve.trans ?_) rfl
    simp only [if_neg hpending, hvalid, hprotected]
    exact lockReply_set (s := s.taken) .ok _

/-! ## The requests on the fault record -/

theorem serveFaultMode_defined {v : Byte} (h : v.toNat < 2) (s : State) :
    serveFaultMode v s = { st := { s with faults := { s.faults with ignoreMinor := v = 1 } }, result := .ok
                           body := [v, flag s.faults.held.isSome] } := by
  have hflag : flag (decide (v = 1)) = v := by
    have hcodes : v = 0 ∨ v = 1 := by bv_omega
    rcases hcodes with rfl | rfl <;> rfl
  rw [serveFaultMode, flagOf_of_lt h]
  dsimp only
  rw [hflag]

/-- Settles O56: the record before it is emptied, and the two values of FAULT-MODE. -/
theorem faultRequestsAct : Obligations.FaultRequestsAct := by
  refine fun s => ⟨fun h => exec_served rfl h rfl (v := serveFaultClear s.taken) rfl rfl,
    fun v h => ⟨fun hv => exec_served rfl h rfl (serveFaultMode_defined hv s.taken) rfl, fun hv => ?_⟩⟩
  exact exec_served rfl h rfl (v := { st := s.taken, result := .inconsistent, body := zeros 2 })
    (by rw [serveFaultMode, flagOf_of_ge hv]) rfl

/-! ## The requests on the counters -/

/-- Counter A counts the selected event, counter B the selected class of it, each up to its greatest value (R157). -/
theorem CounterPair.count_selected (x : CounterPair) (cls : Option ClassNo) (n : Nat) :
    x.count x.event cls n =
      { x with a := min (x.a + n) 4294967295, b := if cls = some x.cls then min (x.b + n) 4294967295 else x.b } := by
  rw [CounterPair.count, if_pos rfl, counterMax]

theorem counterEventOf_of_ge {b : Byte} (h : 8 ≤ b.toNat) : counterEventOf b = none := by
  unfold counterEventOf
  split
  case h_9 => rfl
  all_goals omega

theorem counterEventOf_code (ev : CounterEvent) : counterEventOf ev.code = some ev := by
  cases ev <;> rfl

theorem byte1_of_toNat {b : Byte} {n : Nat} (h : b.toNat = n) : byte1 n = b := by
  rw [byte1, ← h, BitVec.ofNat_toNat, BitVec.setWidth_eq]

section
variable {pb eb cb : Byte} {p : PortNo} {c : ClassNo}

theorem serveCounterSelect_range (h : 16 ≤ pb.toNat ∨ 16 ≤ cb.toNat) (s : State) :
    serveCounterSelect pb eb cb s = { st := s, result := .notAllowed, body := zeros 11 } := by
  rcases h with hp | hc
  · simp only [serveCounterSelect, index16_eq_none hp]
  · rw [serveCounterSelect, index16_eq_none hc]
    cases index16 pb <;> rfl

theorem serveCounterSelect_undefined (hp : pb.toNat = p.val) (hc : cb.toNat = c.val) (h : 8 ≤ eb.toNat) (s : State) :
    serveCounterSelect pb eb cb s = { st := s, result := .inconsistent, body := zeros 11 } := by
  simp only [serveCounterSelect, index16_eq_some hp, index16_eq_some hc, counterEventOf_of_ge h]

theorem serveCounterSelect_stored (hp : pb.toNat = p.val) (hc : cb.toNat = c.val) {ev : CounterEvent} (h : ev.code = eb)
    (s : State) :
    let y := (s.port p).counters.select ev c
    serveCounterSelect pb eb cb s = { st := s.setPort p { s.port p with counters := y }, result := .ok
                                      body := pb :: eb :: cb :: (nat4 y.a ++ nat4 y.b) } := by
  subst h
  simp only [serveCounterSelect, index16_eq_some hp, index16_eq_some hc, counterEventOf_code, CounterPair.bytes,
    CounterPair.select, byte1_of_toNat hc]
  rfl

theorem serveCounterRead_range (h : 16 ≤ pb.toNat) (s : State) :
    serveCounterRead pb eb s = { st := s, result := .notAllowed, body := zeros 11 } := by
  simp only [serveCounterRead, index16_eq_none h]

theorem serveCounterRead_undefined (hp : pb.toNat = p.val) (h : 2 ≤ eb.toNat) (s : State) :
    serveCounterRead pb eb s = { st := s, result := .inconsistent, body := zeros 11 } := by
  simp only [serveCounterRead, index16_eq_some hp, flagOf_of_ge h]

theorem serveCounterRead_kept (hp : pb.toNat = p.val) (s : State) :
    let x := (s.port p).counters
    serveCounterRead pb 0 s =
      { st := s, result := .ok, body := pb :: x.event.code :: byte1 x.cls.val :: (nat4 x.a ++ nat4 x.b) } := by
  rw [serveCounterRead, index16_eq_some hp]
  rfl

theorem serveCounterRead_cleared (hp : pb.toNat = p.val) (s : State) :
    let x := (s.port p).counters
    serveCounterRead pb 1 s =
      { st := s.setPort p { s.port p with counters := { x with a := 0, b := 0 } }, result := .ok
        body := pb :: x.event.code :: byte1 x.cls.val :: (nat4 x.a ++ nat4 x.b) } := by
  rw [serveCounterRead, index16_eq_some hp]
  rfl

end

theorem CounterPair.count_cases (x : CounterPair) (ev : CounterEvent) (cls : Option ClassNo) (n : Nat) :
    let y := x.count ev cls n
    y.event = x.event ∧ y.cls = x.cls ∧ (ev = x.event → y.a = min (x.a + n) 4294967295)
      ∧ (ev = x.event → cls = some x.cls → y.b = min (x.b + n) 4294967295)
      ∧ (cls ≠ some x.cls → y.b = x.b) ∧ (ev ≠ x.event → y = x) := by
  by_cases hev : ev = x.event
  · subst hev
    rw [CounterPair.count_selected]
    exact ⟨rfl, rfl, fun _ => rfl, fun _ hcls => if_pos hcls, fun hcls => if_neg hcls, fun hne => absurd rfl hne⟩
  · rw [CounterPair.count_of_ne (Ne.symm hev)]
    exact ⟨rfl, rfl, fun h => absurd h hev, fun h => absurd h hev, fun _ => rfl, fun _ => rfl⟩

/-- Settles O57: the count, the selection and the reading. -/
theorem counterRequestsAct : Obligations.CounterRequestsAct := by
  refine ⟨fun x ev cls n => ?_, fun s pb eb cb => ⟨fun h => ⟨fun hrange => ?_, fun p c hp hc => ⟨fun hev => ?_, fun ev hev => ?_⟩⟩,
    fun h => ⟨fun hrange => ?_, fun p hp => ⟨fun heb => ?_, fun heb => ?_, fun heb => ?_⟩⟩⟩⟩
  · exact x.count_cases ev cls n
  · exact exec_served rfl h rfl (serveCounterSelect_range hrange s.taken) rfl
  · exact exec_served rfl h rfl (serveCounterSelect_undefined hp hc hev s.taken) rfl
  · exact exec_served rfl h rfl (serveCounterSelect_stored hp hc hev s.taken) rfl
  · exact exec_served rfl h rfl (serveCounterRead_range hrange s.taken) rfl
  · exact exec_served rfl h rfl (serveCounterRead_undefined hp heb s.taken) rfl
  · subst heb
    exact exec_served rfl h rfl (serveCounterRead_kept hp s.taken) rfl
  · subst heb
    exact exec_served rfl h rfl (serveCounterRead_cleared hp s.taken) rfl

end Sys2Proof.Machine
end


section
/-! PROOFS. ABORT-COMMIT, PORT-SET and PORT-MODE. -/

namespace Sys2Proof.Machine

/-! ## The mask of a list of ports -/

def maskOf (ps : List PortNo) : PortSet := ps.foldl (fun acc p => acc ||| portMask p) 0

theorem names_foldl_mask (ps : List PortNo) (acc : PortSet) (q : PortNo) :
    names (ps.foldl (fun acc p => acc ||| portMask p) acc) q = true ↔ names acc q = true ∨ q ∈ ps := by
  induction ps generalizing acc with
  | nil => simp
  | cons p ps ih =>
    rw [List.foldl_cons, ih, names_or, Bool.or_eq_true, names_portMask, decide_eq_true_iff, List.mem_cons, or_assoc]

theorem names_maskOf (ps : List PortNo) (q : PortNo) : names (maskOf ps) q = true ↔ q ∈ ps := by
  rw [maskOf, names_foldl_mask, names_zero]
  simp

theorem maskOf_cons (p : PortNo) (ps : List PortNo) : maskOf (p :: ps) = portMask p ||| maskOf ps :=
  portSet_ext fun q => by
    rw [Bool.eq_iff_iff, names_or, Bool.or_eq_true, names_maskOf, names_maskOf, names_portMask, decide_eq_true_iff,
      List.mem_cons]

theorem maskOf_eq_zero {ps : List PortNo} : maskOf ps = 0 ↔ ps = [] := by
  constructor
  · intro h
    cases ps with
    | nil => rfl
    | cons p ps =>
      have hp := (names_maskOf (p :: ps) p).mpr List.mem_cons_self
      rw [h, names_zero] at hp
      cases hp
  · rintro rfl; rfl

theorem State.portsWithStatus_eq (s : State) (m : PortSet) (st : CommitStatus) :
    s.portsWithStatus m st = maskOf (ascending.filter (fun p => names m p && (s.port p).commitStatus == st)) := rfl

theorem names_portsWithStatus (s : State) (m : PortSet) (st : CommitStatus) (p : PortNo) :
    names (s.portsWithStatus m st) p = true ↔ names m p = true ∧ (s.port p).commitStatus = st := by
  rw [State.portsWithStatus_eq, names_maskOf, List.mem_filter, Bool.and_eq_true, beq_iff_eq]
  exact and_iff_right (mem_ascending p)

/-! ## Commit groups that a set of ports leaves -/

/-- The groups without the ports of a set; a group that holds no port ends (R12, R19). -/
def leaveGroups (gs : List PortSet) (m : PortSet) : List PortSet := (gs.map (fun g => g &&& ~~~m)).filter (fun g => g != 0)

theorem leaveGroups_leaveGroups (gs : List PortSet) (a b : PortSet) :
    leaveGroups (leaveGroups gs a) b = leaveGroups gs (a ||| b) := by
  have hand (g : PortSet) : g &&& ~~~(a ||| b) = g &&& ~~~a &&& ~~~b := by
    rw [BitVec.not_or, BitVec.and_assoc]
  induction gs with
  | nil => rfl
  | cons g gs ih =>
    simp only [leaveGroups, List.map_cons, List.filter_cons] at ih ⊢
    by_cases hzero : g &&& ~~~a = 0
    · have hboth : g &&& ~~~(a ||| b) = 0 := by
        rw [hand, hzero]
        exact BitVec.zero_and
      simpa [hzero, hboth] using ih
    · have hne : (g &&& ~~~a != 0) = true := by simpa using hzero
      rw [if_pos hne, List.map_cons, List.filter_cons, hand, ih]

theorem foldl_leaveGroup {ps : List PortNo} (h : ps ≠ []) (gs : List PortSet) :
    ps.foldl leaveGroup gs = leaveGroups gs (maskOf ps) := by
  induction ps generalizing gs with
  | nil => exact absurd rfl h
  | cons p ps ih =>
    cases ps with
    | nil =>
      have hone : maskOf [p] = portMask p := BitVec.zero_or
      rw [hone]
      rfl
    | cons q qs =>
      rw [List.foldl_cons, maskOf_cons, ← leaveGroups_leaveGroups]
      exact ih (List.cons_ne_nil q qs) _

/-! ## ABORT-COMMIT -/

/-- The ports of a list whose commits are pending. -/
def State.pendingOf (s : State) (ps : List PortNo) : List PortNo :=
  ps.filter (fun p => (s.port p).commitStatus == .pending)

/-- Aborts change the ports and the groups only (R19). -/
theorem State.abortPorts_frame (s : State) (ps : List PortNo) :
    ps.foldl State.abortPort s = { s with ports := (ps.foldl State.abortPort s).ports
                                          groups := (ps.foldl State.abortPort s).groups } := by
  induction ps generalizing s with
  | nil => rfl
  | cons p ps ih =>
    rw [List.foldl_cons]
    refine (ih (s.abortPort p)).trans ?_
    have hone : s.abortPort p = { s with ports := (s.abortPort p).ports, groups := (s.abortPort p).groups } := by
      unfold State.abortPort
      split <;> rfl
    generalize (ps.foldl State.abortPort (s.abortPort p)) = t
    rw [hone]

theorem State.port_abortPorts (s : State) {ps : List PortNo} (hnodup : ps.Nodup) (q : PortNo) :
    (ps.foldl State.abortPort s).port q =
      if q ∈ s.pendingOf ps then { s.port q with commitStatus := .aborted } else s.port q := by
  induction ps generalizing s with
  | nil => rfl
  | cons p ps ih =>
    obtain ⟨hp, hps⟩ := List.nodup_cons.mp hnodup
    rw [List.foldl_cons, ih _ hps]
    by_cases hq : q = p
    · subst hq
      have hnot (t : State) : q ∉ t.pendingOf ps := fun h => hp (List.mem_of_mem_filter h)
      rw [if_neg (hnot _), State.port_abortPort]
      simp [State.pendingOf, List.mem_filter]
    · have hsame : (s.abortPort p).port q = s.port q := by
        rw [State.port_abortPort, if_neg fun h => hq h.1]
      have hmem : q ∈ (s.abortPort p).pendingOf ps ↔ q ∈ s.pendingOf (p :: ps) := by
        simp [State.pendingOf, List.mem_filter, hsame, hq]
      rw [hsame, if_congr hmem rfl rfl]

theorem State.groups_abortPorts (s : State) {ps : List PortNo} (hnodup : ps.Nodup) :
    (ps.foldl State.abortPort s).groups = (s.pendingOf ps).foldl leaveGroup s.groups := by
  induction ps generalizing s with
  | nil => rfl
  | cons p ps ih =>
    obtain ⟨hp, hps⟩ := List.nodup_cons.mp hnodup
    have hpending : (s.abortPort p).pendingOf ps = s.pendingOf ps := by
      refine List.filter_congr fun q hq => ?_
      have hne : q ≠ p := fun h => hp (h ▸ hq)
      rw [State.port_abortPort, if_neg fun h => hne h.1]
    rw [List.foldl_cons, ih _ hps, hpending, State.pendingOf, State.pendingOf, List.filter_cons]
    by_cases h : (s.port p).commitStatus = .pending
    · rw [State.abortPort, if_pos h]
      simp [h]
    · rw [State.abortPort, if_neg h]
      simp [h]

/-- Settles O55: the aborted ports are the named PENDING ones, and the groups are those that they have left. -/
theorem abortCommitAbortsPendingPorts : Obligations.AbortCommitAbortsPendingPorts := by
  intro m s h pending
  have hnodup : (ascending.filter (names m)).Nodup := ascending_nodup.filter _
  have hlist : s.taken.pendingOf (ascending.filter (names m)) =
      ascending.filter (fun p => names m p && (s.port p).commitStatus == .pending) := by
    rw [State.pendingOf, List.filter_filter]
    exact List.filter_congr fun p _ => Bool.and_comm _ _
  have hmask : s.portsWithStatus m .pending = maskOf (s.taken.pendingOf (ascending.filter (names m))) := by
    rw [hlist]
    rfl
  have hports := s.taken.port_abortPorts hnodup
  have hgroups := s.taken.groups_abortPorts hnodup
  have hframe := s.taken.abortPorts_frame (ascending.filter (names m))
  have haborted (p : PortNo) : p ∈ s.taken.pendingOf (ascending.filter (names m)) ↔
      names (s.portsWithStatus m .pending) p = true := by rw [hmask, names_maskOf]
  have hexec := exec_served rfl h rfl (v := serveAbortCommit m s.taken) rfl rfl
  refine ⟨(ascending.filter (names m)).foldl State.abortPort s.taken, s.portsWithStatus m .pending,
    s.portsWithStatus m .applied, hexec, names_portsWithStatus s m .pending, names_portsWithStatus s m .applied,
    fun p => ?_, fun hne => ?_, fun hzero => ?_, hframe⟩
  · rw [hports]
    by_cases hp : p ∈ s.taken.pendingOf (ascending.filter (names m))
    · have hbit : (s.portsWithStatus m .pending).getLsbD p.val = true := (haborted p).mp hp
      rw [if_pos hp, hbit]
      rfl
    · have hbit : (s.portsWithStatus m .pending).getLsbD p.val = false :=
        Bool.eq_false_iff.mpr fun h => hp ((haborted p).mpr h)
      rw [if_neg hp, hbit]
      rfl
  · rw [hmask] at hne ⊢
    rw [hgroups, foldl_leaveGroup fun hnil => hne (maskOf_eq_zero.mpr hnil)]
    rfl
  · rw [hmask, maskOf_eq_zero] at hzero
    rw [hgroups, hzero]
    rfl

/-! ## PORT-SET -/

theorem prescaleOf_of_lt {b : Byte} (h : b.toNat < 2) : prescaleOf b = some (if b = 0 then .us1 else .us16) := by
  have codes : b = 0 ∨ b = 1 := by bv_omega
  rcases codes with rfl | rfl <;> rfl

theorem prescaleOf_of_ge {b : Byte} (h : 2 ≤ b.toNat) : prescaleOf b = none := by
  have h0 : b ≠ 0 := by bv_omega
  have h1 : b ≠ 1 := by bv_omega
  rw [prescaleOf, if_neg h0, if_neg h1]

/-- The settings that a PORT-SET with a defined prescale stores (R22, R23, R115 to R117). -/
def requestedSettings (b : SettingsBody) : PortSettings :=
  { baseRate := max 1 (min b.baseRate.toNat 12500), interval := max 1 b.interval.toNat,
    prescale := if b.prescale = 0 then .us1 else .us16, window := max 1 (min b.window.toNat 8),
    finishDeadline := max 1 b.finishDeadline.toNat, holdDown := b.holdDown.toNat }

theorem clampedSettings_eq (b : SettingsBody) :
    clampedSettings b (if b.prescale = 0 then .us1 else .us16) = requestedSettings b := by
  have hinterval := b.interval.isLt
  have hdeadline := b.finishDeadline.isLt
  have hclampInterval : clamp 1 255 b.interval.toNat = max 1 b.interval.toNat := by rw [clamp]; omega
  have hclampDeadline : clamp 1 65535 b.finishDeadline.toNat = max 1 b.finishDeadline.toNat := by rw [clamp]; omega
  rw [clampedSettings, hclampInterval, hclampDeadline]
  rfl

/-- The four ranged settings lie in their ranges. -/
def settingsInRange (b : SettingsBody) : Prop :=
  1 ≤ b.baseRate.toNat ∧ b.baseRate.toNat ≤ 12500 ∧ 1 ≤ b.interval.toNat ∧ 1 ≤ b.window.toNat ∧ b.window.toNat ≤ 8
    ∧ 1 ≤ b.finishDeadline.toNat

theorem settingsClamped_iff (b : SettingsBody) : settingsClamped b = true ↔ ¬ settingsInRange b := by
  have hinterval := b.interval.isLt
  have hdeadline := b.finishDeadline.isLt
  simp only [settingsClamped, settingsInRange, clamp, Bool.or_eq_true, bne_iff_ne]
  omega

/-- Opportunities keep the settings of every port (R100). -/
theorem State.ladder_settings (s : State) (p : PortNo) : ((s.ladder p).port p).settings = (s.port p).settings := by
  have hsame := s.ladder_port_same p
  unfold Port.sameOutsideAwards at hsame
  rw [hsame]

theorem State.storeSettings_settings (s : State) (p : PortNo) (x : PortSettings) :
    ((s.storeSettings p x).port p).settings = x := by
  unfold State.storeSettings
  dsimp only
  split
  · rw [State.ladder_settings, State.port_mapPort_same]
  · rw [State.port_mapPort_same]

section
variable {pb : Byte} {b : SettingsBody} {p : PortNo}

theorem servePortSet_stored (hp : pb.toNat = p.val) (hb : b.prescale.toNat < 2) (s : State) :
    servePortSet pb b s = { st := s.storeSettings p (requestedSettings b)
                            result := if ¬ settingsClamped b = true then .ok else .clamped
                            body := pb :: (requestedSettings b).bytes } := by
  simp only [servePortSet, index16_eq_some hp, prescaleOf_of_lt hb, clampedSettings_eq, settingsReply,
    State.storeSettings_settings, ite_not]

theorem servePortSet_undefined (hp : pb.toNat = p.val) (hb : 2 ≤ b.prescale.toNat) (s : State) :
    servePortSet pb b s = settingsReply pb p .inconsistent s := by
  simp only [servePortSet, index16_eq_some hp, prescaleOf_of_ge hb]

end

/-- Settles O49: the refusals, and the window that is raised or not. -/
theorem portSetStoresTheSettings : Obligations.PortSetStoresTheSettings := by
  intro pb b s h replies
  refine ⟨fun hrange => ?_, fun p hp => ⟨fun hb => ?_, fun hb => ?_⟩⟩
  · exact exec_served rfl h rfl (v := { st := s.taken, result := .notAllowed, body := zeros 10 })
      (by rw [servePortSet, index16_eq_none hrange]) rfl
  · exact exec_served rfl h rfl (servePortSet_undefined hp hb s.taken) rfl
  · intro x inRange stored r
    have hexec := exec_served rfl h rfl (servePortSet_stored hp hb s.taken) rfl
    have hresult : (if ¬ settingsClamped b = true then ReplyResult.ok else .clamped) = r :=
      if_congr ((not_congr (settingsClamped_iff b)).trans not_not) rfl rfl
    rw [hresult] at hexec
    refine ⟨fun hraised => ?_, fun hkept => ?_⟩
    · have hst : s.taken.storeSettings p (requestedSettings b) = stored.ladder p := if_pos hraised
      rw [hst] at hexec
      exact hexec
    · have hst : s.taken.storeSettings p (requestedSettings b) = stored := if_neg (Nat.not_lt.mpr hkept)
      rw [hst] at hexec
      exact hexec

/-! ## PORT-MODE -/

theorem modeOf_of_ge {b : Byte} (h : 4 ≤ b.toNat) : modeOf b = none := by
  have h0 : b ≠ 0 := by bv_omega
  have h1 : b ≠ 1 := by bv_omega
  have h2 : b ≠ 2 := by bv_omega
  have h3 : b ≠ 3 := by bv_omega
  rw [modeOf, if_neg h0, if_neg h1, if_neg h2, if_neg h3]

/-- An event that leaves a full log full gives no opportunities of R163. -/
theorem State.afterFreeing_of_full {s : State} {full : Bool} (h : full = true → s.log.full = true) :
    s.afterFreeing full = s := by
  refine if_neg fun hfreed => ?_
  rw [Bool.and_eq_true, Bool.not_eq_true'] at hfreed
  obtain ⟨hfull, hnot⟩ := hfreed
  rw [h hfull] at hnot
  cases hnot

theorem State.afterFreeing_eq (s : State) (full : Bool) :
    s.afterFreeing full = if full = true ∧ s.log.full = false then s.rehearsalOpportunities else s := by
  refine if_congr ?_ rfl rfl
  rw [Bool.and_eq_true, Bool.not_eq_true']

theorem State.acceptMode_mode (s : State) (p : PortNo) (m : Mode) : ((s.acceptMode p m).port p).mode = m := by
  have hchanged : ((s.changeMode p m).port p).mode = m := by
    rw [State.port_changeMode, if_pos rfl, Port.modeChanged_mode]
  unfold State.acceptMode
  refine State.afterFreeing_keeps (I := fun t => (t.port p).mode = m)
    (fun t q ht => (t.ladder_mode q p).trans ht) _ ?_
  split
  · rw [State.ladder_mode, hchanged]
  · exact hchanged

section
variable {pb mb : Byte} {p : PortNo} {s : State}

theorem servePortMode_undefined (hp : pb.toNat = p.val) (hm : modeOf mb = none) :
    servePortMode pb mb s = modeReply pb p .inconsistent 0 s := by
  simp only [servePortMode, index16_eq_some hp, hm]

theorem servePortMode_busy (hp : pb.toNat = p.val) (hrefuses : (s.port p).refusesRehearsal = true) :
    servePortMode pb 3 s = modeReply pb p .busy 0 s := by
  have hm : modeOf 3 = some .rehearsal := rfl
  simp only [servePortMode, index16_eq_some hp, hm, hrefuses, true_and, if_true]

theorem servePortMode_accepted {m : Mode} (hp : pb.toNat = p.val) (hm : modeOf mb = some m)
    (hok : m = .rehearsal → (s.port p).refusesRehearsal = false) :
    servePortMode pb mb s = { st := s.acceptMode p m, result := .ok
                              body := [pb, m.code] ++ nat2 ((s.port p).removedBy m) } := by
  have hnot : ¬ (m = .rehearsal ∧ (s.port p).refusesRehearsal = true) := fun ⟨hr, hrefuses⟩ => by
    rw [hok hr] at hrefuses
    cases hrefuses
  simp only [servePortMode, index16_eq_some hp, hm, if_neg hnot, modeReply, State.acceptMode_mode]

theorem exec_portMode_accepted {m : Mode} (h : s.requestNext (.request (.portMode pb mb))) (hp : pb.toNat = p.val)
    (hm : modeOf mb = some m) (hok : m = .rehearsal → (s.port p).refusesRehearsal = false) :
    exec (.portMode pb mb) s = .next ((s.taken.acceptMode p m).queueReply 0x12 .ok
      ([pb, m.code] ++ nat2 ((s.port p).removedBy m)) .nothing).settle :=
  exec_served rfl h rfl (servePortMode_accepted (s := s.taken) hp hm hok) rfl

theorem Port.removedBy_leave {P : Port} {m : Mode} (h : P.mode = .rehearsal) (hm : m ≠ .rehearsal) :
    P.removedBy m = P.records.length := by
  have hlength : P.records.length = P.queued.length + P.awards.length := by
    rw [Port.records, List.length_append, List.length_map]
  cases m
  case rehearsal => exact absurd rfl hm
  all_goals simp only [hlength, Port.removedBy, h]

theorem Port.removedBy_close {P : Port} (h : P.mode = .live ∨ P.mode = .frozen) : P.removedBy .off = P.queued.length := by
  rcases h with h | h <;> simp only [Port.removedBy, h]

theorem Port.removedBy_store {P : Port} {m : Mode} (hr : P.mode ≠ .rehearsal) (hoff : m = .off → P.mode = .off) :
    P.removedBy m = 0 := by
  unfold Port.removedBy
  split
  · rfl
  · exact absurd (by assumption) hr
  · rename_i h; rw [hoff rfl] at h; cases h
  · rename_i h; rw [hoff rfl] at h; cases h
  · rfl

theorem Port.refusesRehearsal_of_awards {P : Port} (h : P.mode = .off) : P.refusesRehearsal = !P.awards.isEmpty := by
  rw [Port.refusesRehearsal, h]

theorem Port.refusesRehearsal_of_serving {P : Port} (h : P.mode = .live ∨ P.mode = .frozen) :
    P.refusesRehearsal = true := by
  rcases h with h | h <;> rw [Port.refusesRehearsal, h]

theorem Port.refusesRehearsal_of_rehearsal {P : Port} (h : P.mode = .rehearsal) : P.refusesRehearsal = false := by
  rw [Port.refusesRehearsal, h]

/-- A mode that is only stored, and is not LIVE, gives no opportunity. -/
theorem acceptMode_store {m : Mode} (hr : (s.port p).mode ≠ .rehearsal) (hoff : m = .off → (s.port p).mode = .off)
    (hlive : m ≠ .live) : s.acceptMode p m = s.setMode p m := by
  have hchange : s.changeMode p m = s.setMode p m :=
    State.changeMode_store hr fun ⟨hm, hne⟩ => hne (hoff hm)
  simp only [State.acceptMode, hchange, if_neg hlive]
  exact State.afterFreeing_of_full id

theorem acceptMode_live (hr : (s.port p).mode ≠ .rehearsal) : s.acceptMode p .live = (s.setMode p .live).ladder p := by
  have hchange : s.changeMode p .live = s.setMode p .live := State.changeMode_store hr fun ⟨hm, _⟩ => by cases hm
  simp only [State.acceptMode, hchange, if_pos]
  exact State.afterFreeing_of_full (State.ladder_full (s.setMode p .live) p)

theorem acceptMode_close (h : (s.port p).mode = .live ∨ (s.port p).mode = .frozen) :
    s.acceptMode p .off = ((s.declineQueues p .portOff).closeRun p).setMode p .off := by
  have hr : (s.port p).mode ≠ .rehearsal := by rcases h with h | h <;> rw [h] <;> decide
  have hoff : (s.port p).mode ≠ .off := by rcases h with h | h <;> rw [h] <;> decide
  simp only [State.acceptMode, State.changeMode_close hr hoff]
  refine State.afterFreeing_of_full fun hfull => ?_
  rw [State.setMode, if_neg (by decide), State.mapPort_log, State.closeRun, State.mapPort_log, State.declineQueues_log]
  exact hfull

theorem acceptMode_leave {m : Mode} (h : (s.port p).mode = .rehearsal) (hm : m ≠ .rehearsal) :
    s.acceptMode p m =
      State.afterFreeing (if m = .live then (s.leaveRehearsal p m).ladder p else s.leaveRehearsal p m) s.log.full := by
  simp only [State.acceptMode, State.changeMode_leave h hm]

theorem acceptMode_stay (h : (s.port p).mode = .rehearsal) : s.acceptMode p .rehearsal = s := by
  simp only [State.acceptMode, State.changeMode_stay h]
  exact State.afterFreeing_of_full id

end

theorem State.setPort_self (s : State) (p : PortNo) : s.setPort p (s.port p) = s := by
  simp [State.setPort, State.port]

theorem State.setMode_self {s : State} {p : PortNo} {m : Mode} (h : (s.port p).mode = m) : s.setMode p m = s := by
  subst h
  exact s.setPort_self p

/-- Settles O50: the refusals, and each accepted change by its lemma about `acceptMode`. -/
theorem portModeChangesTheMode : Obligations.PortModeChangesTheMode := by
  intro pb mb s h s0 replies
  refine ⟨fun hrange => ?_, fun p hp => ?_⟩
  · exact exec_served rfl h rfl (v := { st := s.taken, result := .notAllowed, body := zeros 4 })
      (by rw [servePortMode, index16_eq_none hrange]) rfl
  intro P set off left freed busy
  refine ⟨fun hmb => ?_, fun hmb => ?_, fun hmb => ?_, fun hmb => ?_, fun hmb => ?_⟩
  · exact exec_served rfl h rfl (servePortMode_undefined (s := s.taken) hp (modeOf_of_ge hmb)) rfl
  · subst hmb
    have hexec := exec_portMode_accepted h hp (m := .off) rfl (by simp)
    refine ⟨fun hmode => ?_, fun hmode => ?_, fun hmode => ?_⟩
    · have hnot : P.mode ≠ .rehearsal := by rw [hmode]; decide
      rw [acceptMode_store (s := s.taken) hnot (fun _ => hmode) (by decide), State.setMode_self (s := s.taken) hmode,
        Port.removedBy_store hnot (fun _ => hmode)] at hexec
      exact hexec
    · rw [acceptMode_close (s := s.taken) hmode, Port.removedBy_close hmode] at hexec
      exact hexec
    · rw [acceptMode_leave (s := s.taken) hmode (by decide), Port.removedBy_leave hmode (by decide),
        State.afterFreeing_eq] at hexec
      exact hexec
  · subst hmb
    have hexec := exec_portMode_accepted h hp (m := .live) rfl (by simp)
    refine ⟨fun hmode => ?_, fun hmode => ?_⟩
    · rw [acceptMode_live (s := s.taken) hmode, Port.removedBy_store hmode (by simp)] at hexec
      exact hexec
    · rw [acceptMode_leave (s := s.taken) hmode (by decide), Port.removedBy_leave hmode (by decide),
        State.afterFreeing_eq] at hexec
      exact hexec
  · subst hmb
    have hexec := exec_portMode_accepted h hp (m := .frozen) rfl (by simp)
    refine ⟨fun hmode => ?_, fun hmode => ?_⟩
    · rw [acceptMode_store (s := s.taken) hmode (by simp) (by decide), Port.removedBy_store hmode (by simp)] at hexec
      exact hexec
    · rw [acceptMode_leave (s := s.taken) hmode (by decide), Port.removedBy_leave hmode (by decide),
        State.afterFreeing_eq] at hexec
      exact hexec
  · subst hmb
    have hrefused (hrefuses : P.refusesRehearsal = true) : busy :=
      exec_served rfl h rfl (servePortMode_busy (s := s.taken) hp hrefuses) rfl
    have hexec (hok : P.refusesRehearsal = false) := exec_portMode_accepted h hp (m := .rehearsal) rfl (fun _ => hok)
    refine ⟨fun hmode => hrefused (Port.refusesRehearsal_of_serving hmode), fun hmode hawards => ?_,
      fun hmode hawards => ?_, fun hmode => ?_⟩
    · exact hrefused (by rw [Port.refusesRehearsal_of_awards hmode]; simpa using hawards)
    · have hok : P.refusesRehearsal = false := by rw [Port.refusesRehearsal_of_awards hmode, hawards]; rfl
      have hnot : P.mode ≠ .rehearsal := by rw [hmode]; decide
      have hstored := hexec hok
      rw [acceptMode_store (s := s.taken) hnot (by simp) (by decide), Port.removedBy_store hnot (by simp)] at hstored
      exact hstored
    · have hstays := hexec (Port.refusesRehearsal_of_rehearsal hmode)
      have hremoved : P.removedBy .rehearsal = 0 := by simp only [Port.removedBy, hmode]
      rw [acceptMode_stay (s := s.taken) hmode, hremoved] at hstays
      exact hstays

end Sys2Proof.Machine
end


section
/-! PROOFS. The requests of the rehearsal unit: TEST-BID, TEST-FINISH and REHEARSAL-READ. -/

namespace Sys2Proof.Machine

open Sys2Proof.Wire (bytes2 portNibble)

/-! ## TEST-BID -/

section
variable {b : BidBody} {s : State}

theorem serveTestBid_of_mode (h : (s.port b.port).mode ≠ .rehearsal) :
    serveTestBid b s = { st := s, result := .notAllowed, body := zeros 4 } := if_pos h

theorem serveTestBid_of_decline {cause : Cause} {e : Option EntryNo} (hmode : (s.port b.port).mode = .rehearsal)
    (hcheck : s.checkFrom2 b = .decline cause e) :
    serveTestBid b s = testBidReply b cause.code (s.declineBid b cause e) := by
  simp only [serveTestBid, hmode, ne_eq, not_true_eq_false, if_false, hcheck]

theorem serveTestBid_of_accept {e : EntryNo} (hmode : (s.port b.port).mode = .rehearsal)
    (hcheck : s.checkFrom2 b = .accept e) :
    serveTestBid b s = testBidReply b 0 ((s.acceptBid b e).ladder b.port) := by
  simp only [serveTestBid, hmode, ne_eq, not_true_eq_false, if_false, hcheck]

theorem declineBid_of_none {cause : Cause} {e : Option EntryNo} (h : s.declineFault b cause e = none) :
    s.declineBid b cause e = (s.count b.port .arrivals (s.bidClass e) 1).count b.port .declines (s.bidClass e) 1 := by
  simp only [State.declineBid, h]

theorem declineBid_of_some {cause : Cause} {e : Option EntryNo} {f : FaultReport} (h : s.declineFault b cause e = some f) :
    s.declineBid b cause e =
      ((s.reportFault f).count b.port .arrivals (s.bidClass e) 1).count b.port .declines (s.bidClass e) 1 := by
  simp only [State.declineBid, h]

/-- The outcome of a TEST-BID that is next, its state given. -/
theorem exec_testBid {outcome : Byte} {u : State} (h : s.requestNext (.request (.testBid b)))
    (hserve : serveTestBid b s.taken = testBidReply b outcome u) :
    exec (.testBid b) s
      = .next (u.queueReply 0x60 .ok (portNibble b.port 0 :: (bytes2 b.tag ++ [outcome])) .nothing).settle :=
  exec_served rfl h rfl hserve rfl

theorem exec_testBid_declined (cause : Cause) (e : Option EntryNo) (h : s.requestNext (.request (.testBid b)))
    (hmode : (s.port b.port).mode = .rehearsal) (hcheck : s.checkFrom2 b = .decline cause e)
    (hfault : s.declineFault b cause e = none) :
    exec (.testBid b) s = .next (State.queueReply
      ((s.taken.count b.port .arrivals (s.bidClass e) 1).count b.port .declines (s.bidClass e) 1) 0x60 .ok
      (portNibble b.port 0 :: (bytes2 b.tag ++ [cause.code])) .nothing).settle := by
  have hserve := serveTestBid_of_decline (s := s.taken) hmode hcheck
  rw [declineBid_of_none (s := s.taken) hfault] at hserve
  exact exec_testBid h hserve

theorem exec_testBid_faulted (cause : Cause) (e : Option EntryNo) {f : FaultReport}
    (h : s.requestNext (.request (.testBid b))) (hmode : (s.port b.port).mode = .rehearsal)
    (hcheck : s.checkFrom2 b = .decline cause e) (hfault : s.declineFault b cause e = some f) :
    exec (.testBid b) s = .next (State.queueReply
      (((s.taken.reportFault f).count b.port .arrivals (s.bidClass e) 1).count b.port .declines (s.bidClass e) 1) 0x60
      .ok (portNibble b.port 0 :: (bytes2 b.tag ++ [cause.code])) .nothing).settle := by
  have hserve := serveTestBid_of_decline (s := s.taken) hmode hcheck
  rw [declineBid_of_some (s := s.taken) hfault] at hserve
  exact exec_testBid h hserve

theorem exec_testBid_accepted {e : EntryNo} (h : s.requestNext (.request (.testBid b)))
    (hmode : (s.port b.port).mode = .rehearsal) (hcheck : s.checkFrom2 b = .accept e) :
    exec (.testBid b) s = .next (State.queueReply ((s.taken.acceptBid b e).ladder b.port) 0x60 .ok
      (portNibble b.port 0 :: (bytes2 b.tag ++ [0])) .nothing).settle :=
  exec_testBid h (serveTestBid_of_accept (s := s.taken) hmode hcheck)

end

/-- Settles O58: checks 2 to 9 of Table 3.4 in their order, each with what its failure leaves. -/
theorem testBidIsAcceptedOrDeclined : Obligations.TestBidIsAcceptedOrDeclined := by
  intro b s h s0 P replies counted faulted
  refine ⟨fun hmode => exec_served rfl h rfl (serveTestBid_of_mode (s := s.taken) hmode) rfl, fun hmode =>
    ⟨fun hdown => exec_testBid_declined .portDown none h hmode (checkFrom2_stranded hdown) rfl,
      fun hup hnone => exec_testBid_faulted .unknownSource none h hmode (checkFrom2_unknown hup hnone) rfl, fun hup e hfound => ?_⟩⟩
  have hentry : s.checkFrom2 b = s.checkWithEntry b e := checkFrom2_found hup hfound
  intro x r used k
  refine ⟨fun hmuted => exec_testBid_declined .sourceMuted (some e) h hmode (hentry.trans (checkWithEntry_muted hmuted)) rfl,
    fun hadm hinvalid =>
      exec_testBid_declined .noAllotment (some e) h hmode (hentry.trans (checkWithEntry_noAllotment hadm hinvalid)) rfl,
    fun hadm hvalid => ⟨fun hused =>
      exec_testBid_faulted .duplicateTag (some e) h hmode (hentry.trans (checkWithEntry_duplicateTag hadm hvalid hused)) rfl,
      fun hnew hlimit => ?limit, fun hnew hbelow => ⟨fun hfull => ?queue, fun hroom => ⟨fun hzero => ?pool,
        fun hfree => ?accept⟩⟩⟩⟩
  all_goals have hlast := hentry.trans (checkWithEntry_of_newTag hadm hvalid hnew)
  case limit => exact exec_testBid_declined .sourceLimit (some e) h hmode (hlast.trans (if_pos hlimit)) rfl
  all_goals have hlast := hlast.trans (if_neg (Nat.not_le.mpr hbelow))
  case queue => exact exec_testBid_declined .queueFull (some e) h hmode (hlast.trans (if_pos hfull)) rfl
  all_goals have hlast := hlast.trans (if_neg (Nat.not_le.mpr hroom))
  case pool => exact exec_testBid_faulted .poolFull (some e) h hmode (hlast.trans (if_pos hzero)) rfl
  case accept =>
    have haccept := hlast.trans (if_neg (Nat.ne_of_gt hfree))
    have hexec := exec_testBid_accepted h hmode haccept
    rw [acceptBid_eq] at hexec
    exact hexec

/-! ## TEST-FINISH -/

section
variable {f : FinishBody} {s : State}

theorem serveTestFinish_of_mode (h : (s.port f.port).mode ≠ .rehearsal) :
    serveTestFinish f s = { st := s, result := .notAllowed, body := zeros 7 } := if_pos h

theorem serveTestFinish_awarded {a : AwardRecord} (hmode : (s.port f.port).mode = .rehearsal)
    (ha : (s.port f.port).award? f.tag = some a) :
    serveTestFinish f s = testFinishReply f 0 (a.refundDue f.moved.toNat)
      ((s.finishRecord f.port a f.moved.toNat).afterTestFinish f.port s.log.full) := by
  simp only [serveTestFinish, hmode, ne_eq, not_true_eq_false, if_false, ha]

theorem serveTestFinish_stray (hmode : (s.port f.port).mode = .rehearsal) (ha : (s.port f.port).award? f.tag = none) :
    serveTestFinish f s =
      testFinishReply f 1 0 (s.strayFinish f.port f.tag ((s.port f.port).queuedRecord f.tag)) := by
  simp only [serveTestFinish, hmode, ne_eq, not_true_eq_false, if_false, ha]

/-- The outcome of a TEST-FINISH that is next, its state given. -/
theorem exec_testFinish {outcome : Byte} {refund : Nat} {u : State} (h : s.requestNext (.request (.testFinish f)))
    (hserve : serveTestFinish f s.taken = testFinishReply f outcome refund u) :
    exec (.testFinish f) s = .next (u.queueReply 0x61 .ok
      (portNibble f.port 0 :: (bytes2 f.tag ++ outcome :: nat3 refund)) .nothing).settle :=
  exec_served rfl h rfl hserve rfl

end

/-- A finish on a port in REHEARSAL frees the record's reserved place before the record returns (R164). -/
theorem State.finishRecord_rehearsal {s : State} {p : PortNo} {a : AwardRecord} (moved : Nat)
    (hmode : (s.port p).mode = .rehearsal) :
    s.finishRecord p a moved =
      let t := (if a.bid.length < moved then s.reportFault (s.recordFault .overlengthFinish p a.bid) else s).setPort p
        ((s.port p).finished a moved)
      { t with log := { s.log with reserved := s.log.reserved - 1 } }.returnRecord a.bid := by
  have hfinished : ((s.port p).finished a moved).mode = .rehearsal := by rw [Port.finished_mode, hmode]
  have hlog : (if a.bid.length < moved then s.reportFault (s.recordFault .overlengthFinish p a.bid) else s).log
      = s.log := by split <;> simp
  rw [State.finishRecord_eq, State.freeReserved_setPort, if_pos hfinished, hlog]

theorem State.afterTestFinish_freed {s : State} {p : PortNo} {full : Bool} (hfull : full = true)
    (hnot : s.log.full = false) : s.afterTestFinish p full = s.rehearsalOpportunities := by
  rw [State.afterTestFinish, hfull, hnot]
  rfl

theorem State.afterTestFinish_own {s : State} {p : PortNo} {full : Bool} (h : full = false ∨ s.log.full = true) :
    s.afterTestFinish p full = s.ladder p := by
  rcases h with h | h
  · rw [State.afterTestFinish, h]
    rfl
  · rw [State.afterTestFinish, h]
    cases full <;> rfl

/-- Settles O59: by the place at which the tag stands. -/
theorem testFinishEndsARecordOrIsStray : Obligations.TestFinishEndsARecordOrIsStray := by
  intro f s h huniq s0 P replies stray
  refine ⟨fun hmode => exec_served rfl h rfl (serveTestFinish_of_mode (s := s.taken) hmode) rfl, fun hmode =>
    ⟨fun before after a hsplit htag => ?_, fun c b hb htag => ?_, fun hunused => ?_⟩⟩
  · have haward : (s.taken.port f.port).award? f.tag = some a :=
      htag ▸ Port.award?_of_split (huniq f.port) hsplit
    have hserve := serveTestFinish_awarded (s := s.taken) hmode haward
    have hport : s.taken.port f.port = s.port f.port := rfl
    intro due r cb refunded Q s1 s2 s3
    have hrefunded : (s.port f.port).finished a f.moved.toNat = if due = 0 then Q else Q.setRow a.bid.cls refunded := by
      rw [Port.finished_of_split _ (huniq f.port) hsplit]
      cases hcharge : a.charge <;> simp only [refunded, hcharge] <;> rfl
    have hfinish : s.taken.finishRecord f.port a f.moved.toNat = s3 := by
      rw [State.finishRecord_rehearsal (s := s.taken) _ hmode, hport, hrefunded, State.recordFault, htag]
      rfl
    have hlog : s.taken.log = s.log := rfl
    have hdue : a.refundDue f.moved.toNat = due := rfl
    rw [hfinish, hlog, hdue] at hserve
    refine ⟨fun hfull hnot => ?_, fun hkept => ?_⟩
    · rw [State.afterTestFinish_freed hfull hnot] at hserve
      exact exec_testFinish h hserve
    · rw [State.afterTestFinish_own hkept] at hserve
      exact exec_testFinish h hserve
  · have hserve := serveTestFinish_stray (s := s.taken) hmode (htag ▸ Port.award?_of_queued (huniq f.port) hb)
    have hqueued : (s.taken.port f.port).queuedRecord f.tag = some b :=
      htag ▸ Port.queuedRecord_of_mem (huniq f.port) hb
    rw [hqueued] at hserve
    exact exec_testFinish h hserve
  · have hserve := serveTestFinish_stray (s := s.taken) hmode (Port.award?_of_unused hunused)
    have hqueued : (s.taken.port f.port).queuedRecord f.tag = none := Port.queuedRecord_eq_none hunused
    rw [hqueued] at hserve
    exact exec_testFinish h hserve

/-! ## REHEARSAL-READ -/

theorem RehearsalLog.full_iff (l : RehearsalLog) : l.full = true ↔ 63 ≤ l.entries.length + l.reserved := by
  rw [RehearsalLog.full, RehearsalLog.freePlaces, decide_eq_true_iff]
  omega

/-- Settles O60: the log full before and after the entries leave it. -/
theorem rehearsalReadRemovesEntries : Obligations.RehearsalReadRemovesEntries := by
  intro s h given read full replies
  have hexec := exec_served rfl h rfl (v := serveRehearsalRead s.taken) rfl rfl
  have hstate (u : State) (hu : read.afterFreeing s.log.full = u) : replies u := by
    subst hu
    exact hexec
  refine ⟨fun hfull hnot => hstate _ ?_, fun hkept => hstate _ ?_⟩
  · have hfreed : read.log.full = false := Bool.eq_false_iff.mpr fun h => hnot ((RehearsalLog.full_iff _).mp h)
    rw [State.afterFreeing_eq, if_pos ⟨(RehearsalLog.full_iff _).mpr hfull, hfreed⟩]
    rfl
  · refine State.afterFreeing_of_full fun hfull => ?_
    exact (RehearsalLog.full_iff _).mpr (hkept.resolve_left (not_not_intro ((RehearsalLog.full_iff _).mp hfull)))

end Sys2Proof.Machine
end


section
/-! PROOFS. The warm reset and the cold reset. -/

namespace Sys2Proof.Machine

/-! ## Opportunities with nothing to award -/

/-- A port with empty queues and no open run makes nothing of an opportunity (R64). -/
theorem State.ladder_of_empty {s : State} {p : PortNo} (hqueue : ∀ c, ((s.port p).row c).queue = [])
    (hrun : (s.port p).run = none) : s.ladder p = s := by
  cases hmay : s.mayAward p with
  | false => exact State.ladder_of_not_mayAward hmay
  | true =>
    have hpass : (s.port p).pass = ((s.port p).pass.1, none) :=
      Prod.ext rfl (Port.pass_of_no_queue hqueue)
    have hclosed : (s.port p).pass.1 = s.port p := by
      rw [Port.pass_none hpass, ← hrun]
    rw [State.ladder_of_none hmay hpass, hclosed, State.setPort_self]

theorem State.afterFreeing_of_empty {s : State} (hqueue : ∀ p c, ((s.port p).row c).queue = [])
    (hrun : ∀ p, (s.port p).run = none) (full : Bool) : s.afterFreeing full = s :=
  State.afterFreeing_keeps (I := fun t => t = s)
    (fun t p ht => by rw [ht, State.ladder_of_empty (hqueue p) (hrun p)]) full rfl

/-! ## The warm reset -/

theorem State.sendUntilReset_of_sent {s : State} (h : s.mg.resetStage = .replySent) (n : Nat) :
    State.sendUntilReset n s = s := by
  cases n with
  | zero => rfl
  | succ n => exact if_neg (by rw [h]; decide)

/-- After the reset nothing is eligible, so the opportunities of R163 that a full log calls for award nothing. -/
theorem State.warmReset_eq (s : State) : s.warmReset = s.warmValues :=
  State.afterFreeing_of_empty (fun p c => by rw [State.port_warmValues, Port.row_warm])
    (fun p => by rw [State.port_warmValues]; rfl) _

theorem Port.stagedRow_warm (P : Port) (c : ClassNo) : P.warm.stagedRow c = (P.row c).contract := by
  simp [Port.stagedRow, Port.warm, Port.row]

theorem State.source_warmValues (s : State) (e : EntryNo) :
    s.warmValues.source e = { s.source e with outstanding := 0 } := by
  simp [State.source, State.warmValues, SourceEntry.warm]

theorem SwitchUnit.purged_eq (u : SwitchUnit) :
    u.purged = { u with outq := (if u.sending then u.outq.take 1 ++ (u.outq.drop 1).filter (fun f => f == .sync)
      else u.outq.filter (fun f => f == .sync)) ++ [.forgotten] } := by
  cases h : u.sending <;> simp [SwitchUnit.purged, h]

/-- Settles O47: the warm values of each block. -/
theorem warmResetDropsBidState : Obligations.WarmResetDropsBidState := by
  intro s hpin hstage
  have hexec : exec .warmReset s = .next s.warmValues.settle := by
    show execWarmReset s = _
    rw [execWarmReset, event_high hpin, State.sendUntilReset_of_sent hstage]
    dsimp only
    rw [if_pos hstage, State.warmReset_eq]
  refine ⟨s.warmValues, hexec, fun p => ?_, s.source_warmValues, rfl, s.sw.purged_eq, rfl, rfl, rfl, rfl, rfl, rfl, rfl⟩
  rw [State.port_warmValues]
  exact ⟨fun c => ⟨Port.row_warm _ c, Port.stagedRow_warm _ c⟩, rfl⟩

/-! ## The cold reset -/

theorem Port.stagedRow_cold (c : ClassNo) : Port.cold.stagedRow c = .cold := by
  simp [Port.stagedRow, Port.cold]

theorem Port.lockCell_cold (c : ClassNo) : Port.cold.lockCell c = { locked := false, floor := 0 } := by
  simp [Port.lockCell, Port.cold]

theorem State.source_reset (q : List Instr) (e : EntryNo) :
    ({ State.reset with pending := q } : State).source e = .cold := by
  simp [State.source, State.reset]

/-- Settles O48: the two edges of RST_N. -/
theorem coldResetGivesColdValues : Obligations.ColdResetGivesColdValues := by
  refine fun s => ⟨⟨_, rfl, rfl, rfl, rfl, rfl, rfl, rfl, rfl⟩, _, rfl, rfl, rfl, rfl, fun p => ?_,
    State.source_reset s.pending, rfl, rfl, rfl, rfl, rfl, rfl⟩
  rw [State.port_reset]
  refine ⟨fun c => ?_, rfl⟩
  rw [Port.row_cold, Port.stagedRow_cold, Port.lockCell_cold]
  exact ⟨rfl, rfl, rfl, rfl⟩

end Sys2Proof.Machine
end
